-- ==== Sys2Proof/Word.lean ====
section
/-!
DEFINITION. The plain types of the block: bytes, 32-bit timer data, the two operation formats (EV and PH),
the thirteen phases, the six timer register names and the two schedule tokens.
Spec: 00_scope.md R14, R15; 30_encoding.md R80, R84, R86, R89, R96; 10_state.md R28, R33.
-/

namespace Sys2Proof

/-- The 8-bit values of the block: `base`, `mult`, the keys, the status output (R15 `bits8`). -/
abbrev Byte := BitVec 8

/-- The 32-bit values of the block: divisors, compare values, timer write data (R15 `bits32`). -/
abbrev Data := BitVec 32

/-- An operation as it is encoded (30_encoding.md R80): the 1-bit strobe of format EV (R86) or the
4-bit phase code of format PH (R84). No format has an operand field (R90). -/
inductive Word where
  | ev (strobe : BitVec 1)
  | ph (code : BitVec 4)
deriving DecidableEq, Repr

/-- The thirteen phases of the poll agent, in cycle order (10_state.md R28). The codes `1101`, `1110`,
`1111` are left out of the type, as 30_encoding.md R84 and R92 ask. -/
inductive Phase where
  | rdb | rdm | mir | cmp | scan
  | wmoff | wcoff | wper | wca | wcb | wcnt | wmon | wcsel
deriving DecidableEq, Repr

/-- The six timer registers (10_state.md R33, ids in 30_encoding.md R89). The ids 6 and 7 are left out
of the type (30_encoding.md R92). -/
inductive TReg where
  | mode | clksel | period | cmpa | cmpb | count
deriving DecidableEq, Repr

/-- The two primitive tokens of a schedule (30_encoding.md R96): `edge` is `E`, one step of the edge
agent; `poll` is `p`, one step of the poll agent. -/
inductive Token where
  | edge
  | poll
deriving DecidableEq, Repr, Inhabited

end Sys2Proof
end

