-- ==== Sys2Proof/Syntax.lean ====
section
/-!
DEFINITION. The 14 operations of the block (30_encoding.md R91): one constructor per row of
spec/opcode_table.json. No operation has an operand field (30_encoding.md R90).
-/

namespace Sys2Proof

/-- The operations: `EDGE` of the edge agent (format EV) and the thirteen micro-operations of the poll
agent (format PH). -/
inductive Instr where
  /-- `EDGE` (40_edge_debounce.md R110). -/
  | edge
  /-- `RDB` (42_poll_lookup.md R141, R143). -/
  | rdb
  /-- `RDM` (42_poll_lookup.md R142). -/
  | rdm
  /-- `MIR` (42_poll_lookup.md R144). -/
  | mir
  /-- `CMP` (42_poll_lookup.md R145). -/
  | cmp
  /-- `SCAN` (42_poll_lookup.md R146). -/
  | scan
  /-- `WMOFF` (43_timer_write_sequencer.md R166). -/
  | wmoff
  /-- `WCOFF` (43_timer_write_sequencer.md R167). -/
  | wcoff
  /-- `WPER` (43_timer_write_sequencer.md R168). -/
  | wper
  /-- `WCA` (43_timer_write_sequencer.md R169). -/
  | wca
  /-- `WCB` (43_timer_write_sequencer.md R170). -/
  | wcb
  /-- `WCNT` (43_timer_write_sequencer.md R171). -/
  | wcnt
  /-- `WMON` (43_timer_write_sequencer.md R172). -/
  | wmon
  /-- `WCSEL` (43_timer_write_sequencer.md R173). -/
  | wcsel
deriving DecidableEq, Repr

end Sys2Proof
end

