-- ==== Sys2Proof/Config.lean ====
section
/-!
DEFINITION. What is fixed for the life of the block (00_scope.md R11, 10_state.md R37): the record of the parameters
every rule takes as an argument; the two parameters the spec leaves OPEN and the schedule, which the environment
chooses (opaque constants, no body); and the unknown contents of the registers that no rule has written yet (opaque
constants, no body). Nothing can be proved of an opaque constant but what holds for every value of its type.
-/

namespace Sys2Proof

/-- One pair of tuning literals (00_scope.md R11 `TUNE`): a 32-bit divisor and an 8-bit selector. -/
structure Entry where
  div : Data
  ps : Byte
deriving DecidableEq, Repr, Inhabited

/-- Which shared register the poll agent reads first (00_scope.md R11 `READ_ORDER`, D5). -/
inductive ReadOrder where
  | baseFirst
  | multFirst
deriving DecidableEq, Repr

/-- The parameters of the step relation (00_scope.md R11). `MODE_OFF`, `CLK_OFF`, `DUTY_A` and `DUTY_B` are
decided by the spec and are definitions of `Sys2Proof/Machine/Operands.lean`. -/
structure Params where
  /-- `TUNE`: the 20 tuning pairs the ROM is built from (R51, R53). -/
  tune : Fin 20 → Entry
  /-- `MODE_RUN`: the run configuration of the timer (R172). -/
  modeRun : Data
  /-- `SNAPSHOT_ATOMIC`: are the two shared registers read in one step (R66, R143)? -/
  snapshotAtomic : Bool
  /-- `READ_ORDER`: which shared register `RDB` reads (R141, R142). -/
  readOrder : ReadOrder
  /-- `TOGGLE_RESET`: the debounce toggle after reset (R23, D2). -/
  toggleReset : Bool
  /-- `PREV_RESET`: the previous key after reset (R26, D3). -/
  prevReset : Byte
  /-- The schedule, which agent makes step n of an infinite run (R17, R37: "the schedule (which agent steps
  next)"). Nothing is assumed of it; that it is fair (R225) is a premise where it is needed. -/
  schedule : Nat → Token

/-- `TUNE` of this block, OPEN: the 20 literal pairs are not in the source (R53, D10, N1). Log entry 2. -/
opaque Config.tune : Fin 20 → Entry

/-- `MODE_RUN` of this block, OPEN: its bits are not in the source (R172, D9, N4). Log entry 2. -/
opaque Config.modeRun : Data

/-- The schedule of this block: the environment chooses when events come, finitely or infinitely many of them
(R17, R37, R225). Log entry 1. -/
opaque Config.schedule : Nat → Token

/-- What `smp` holds before the first `RDB`: "no value" in the spec (R25, R222). Log entry 3. -/
opaque Config.unwrittenSmp : Byte

/-- What `cur` holds before the first `RDM`: "no value" in the spec (R26, R222). Log entry 3. -/
opaque Config.unwrittenCur : Byte

/-- What `idx` holds before the first changed `CMP`: "no value" in the spec (R27, R222). Log entry 3. -/
opaque Config.unwrittenIdx : Fin 21

/-- What `ed` holds before the first matching `SCAN`: "no value" in the spec (R29, R222). Log entry 3. -/
opaque Config.unwrittenEd : Data

/-- What `eps` holds before the first matching `SCAN`: "no value" in the spec (R29, R222). Log entry 3. -/
opaque Config.unwrittenEps : Byte

/-- What the status lines show before the first `MIR`: "no value" in the spec (R30, R222). Log entry 3. -/
opaque Config.unwrittenStatus : Byte

/-- What the shadow of a timer register holds before the block first writes that register: "no value" in
the spec (R31, R222). Log entry 3. -/
opaque Config.unwrittenTimer : TReg → Data

end Sys2Proof
end

