-- ==== Sys2Proof/WellFormed.lean ====
section
/-!
DEFINITION. The checks the spec names: which operation words select an operation (30_encoding.md R86, R92),
which bytes are legal CompositeStates (R81), and the premises W1, W2, W3 on the tuning table with the
premise on the run mode (00_scope.md R12, 92_eei_decisions.md D9). An operation has no operand, so every
term of `Instr` is well formed (30_encoding.md R90).
-/

namespace Sys2Proof

/-- An operation carries no operand field (30_encoding.md R90), so there is nothing to check in one. -/
def Instr.wellFormed : Instr → Bool
  | .edge | .rdb | .rdm | .mir | .cmp | .scan
  | .wmoff | .wcoff | .wper | .wca | .wcb | .wcnt | .wmon | .wcsel => true

/-- A word that selects an operation: a strobe of 1 (R86) or one of the thirteen phase codes (R85, R92). -/
def Word.wellFormed : Word → Bool
  | .ev strobe => strobe == 1
  | .ph code => decide (code.toNat < 13)

/-- A legal BaseField, bits 7:3 of a CompositeState: exactly one bit set (R81). -/
def legalBaseField (f : BitVec 5) : Bool :=
  f == 0b00001 || f == 0b00010 || f == 0b00100 || f == 0b01000 || f == 0b10000

/-- A legal MultiplierField, bits 2:0 of a CompositeState: zero or exactly one bit set (R81). -/
def legalMultField (f : BitVec 3) : Bool :=
  f == 0b000 || f == 0b001 || f == 0b010 || f == 0b100

/-- A legal CompositeState byte: both fields are legal (R81). -/
def legalComposite (c : Byte) : Bool :=
  legalBaseField (c.extractLsb' 3 5) && legalMultField (c.extractLsb' 0 3)

/-- Premise W1 (R12): every divisor is at least 2. -/
abbrev Params.W1 (P : Params) : Prop := ∀ i : Fin 20, 2 ≤ (P.tune i).div.toNat

/-- Premise W2 (R12): every selector is a 3-bit code, its bits 7:3 are zero. -/
abbrev Params.W2 (P : Params) : Prop := ∀ i : Fin 20, (P.tune i).ps.extractLsb' 3 5 = 0

/-- Premise W3 (R12): no selector is zero. -/
abbrev Params.W3 (P : Params) : Prop := ∀ i : Fin 20, (P.tune i).ps ≠ 0

/-- The premise of 92_eei_decisions.md D9: the run mode differs from the neutral mode, which is 0. -/
abbrev Params.RunsApart (P : Params) : Prop := P.modeRun ≠ 0

/-- A setting of the parameters that the spec admits (R12, D9). -/
abbrev Params.WellFormed (P : Params) : Prop := P.W1 ∧ P.W2 ∧ P.W3 ∧ P.RunsApart

end Sys2Proof
end

