-- ==== Sys2Proof/Decode.lean ====
section
/-!
DEFINITION. The decoder, total on every word of the two operation formats and rejecting by name
(30_encoding.md R84 to R86, R92), the encoder written from the same tables, and the encodings of the
other formats: the timer write transaction TWX (R88, R89), the 5-bit table index (10_state.md R27) and the schedule
bit string (R96).
-/

namespace Sys2Proof

/-- Why a word selects no operation. -/
inductive DecodeError where
  /-- Format EV with `edge_ev = 0`: no event (R86). Raised by `decode`; safe, the word selects nothing. -/
  | noEvent
  /-- Format PH with code `1101`, `1110` or `1111` (R92). Raised by `decode`; safe, the spec says refuse. -/
  | reservedPhaseCode (code : BitVec 4)
deriving DecidableEq, Repr

/-- The code of a phase (table of R85). -/
def phaseCode : Phase → BitVec 4
  | .rdb => 0b0000
  | .rdm => 0b0001
  | .mir => 0b0010
  | .cmp => 0b0011
  | .scan => 0b0100
  | .wmoff => 0b0101
  | .wcoff => 0b0110
  | .wper => 0b0111
  | .wca => 0b1000
  | .wcb => 0b1001
  | .wcnt => 0b1010
  | .wmon => 0b1011
  | .wcsel => 0b1100

/-- The phase a code names, or none for the three reserved codes (R85, R92). -/
def phaseOfCode (c : BitVec 4) : Option Phase :=
  match c.toNat with
  | 0 => some .rdb
  | 1 => some .rdm
  | 2 => some .mir
  | 3 => some .cmp
  | 4 => some .scan
  | 5 => some .wmoff
  | 6 => some .wcoff
  | 7 => some .wper
  | 8 => some .wca
  | 9 => some .wcb
  | 10 => some .wcnt
  | 11 => some .wmon
  | 12 => some .wcsel
  | _ => none

/-- The micro-operation a phase selects (R28: "it names the micro-operation the poll agent's next step
performs"). -/
def phaseInstr : Phase → Instr
  | .rdb => .rdb
  | .rdm => .rdm
  | .mir => .mir
  | .cmp => .cmp
  | .scan => .scan
  | .wmoff => .wmoff
  | .wcoff => .wcoff
  | .wper => .wper
  | .wca => .wca
  | .wcb => .wcb
  | .wcnt => .wcnt
  | .wmon => .wmon
  | .wcsel => .wcsel

/-- The decoder: format EV by its strobe (R86), format PH by a look-up of its code (R84, R85). -/
def decode : Word → Except DecodeError Instr
  | .ev strobe => if strobe = 1 then .ok .edge else .error .noEvent
  | .ph code =>
    match phaseOfCode code with
    | some p => .ok (phaseInstr p)
    | none => .error (.reservedPhaseCode code)

/-- The encoder: the word that selects an operation (R85, R86; column "encoding" of opcode_table.json). -/
def encode : Instr → Word
  | .edge => .ev 1
  | .rdb => .ph 0b0000
  | .rdm => .ph 0b0001
  | .mir => .ph 0b0010
  | .cmp => .ph 0b0011
  | .scan => .ph 0b0100
  | .wmoff => .ph 0b0101
  | .wcoff => .ph 0b0110
  | .wper => .ph 0b0111
  | .wca => .ph 0b1000
  | .wcb => .ph 0b1001
  | .wcnt => .ph 0b1010
  | .wmon => .ph 0b1011
  | .wcsel => .ph 0b1100

/-- The width of a word's format in bits: 1 for EV, 4 for PH (R95). -/
def wordWidth : Word → Nat
  | .ev _ => 1
  | .ph _ => 4

/-- A word as a number, bit 0 least significant (R14). -/
def wordBits : Word → Nat
  | .ev strobe => strobe.toNat
  | .ph code => code.toNat

/-- The operation word of a table row: a row of one bit is format EV, a longer row is format PH, whose bits
above the 4-bit code must be 0. Log entry 6: the two formats arrive on different wires, and a number that
was padded to whole bytes no longer says which, so a padded 1 reads as the phase code `0001`. -/
def tableWord (nbits w : Nat) : Option Word :=
  if nbits = 1 then
    if w < 2 then some (.ev (BitVec.ofNat 1 w)) else none
  else if w < 16 then some (.ph (BitVec.ofNat 4 w)) else none

/-- What the decoder reads from the bits of a row of spec/opcode_table.json. -/
def decodeTableWord (nbits w : Nat) : Option Instr :=
  match tableWord nbits w with
  | some word => (decode word).toOption
  | none => none

/-- The three `reg` bits of a timer register (R89). -/
def tregId : TReg → BitVec 3
  | .mode => 0b000
  | .clksel => 0b001
  | .period => 0b010
  | .cmpa => 0b011
  | .cmpb => 0b100
  | .count => 0b101

/-- The timer register an id names; ids 6 and 7 do not exist (R89, R92). -/
def tregOfId (id : BitVec 3) : Option TReg :=
  match id.toNat with
  | 0 => some .mode
  | 1 => some .clksel
  | 2 => some .period
  | 3 => some .cmpa
  | 4 => some .cmpb
  | 5 => some .count
  | _ => none

/-- A timer write as its 35-bit transaction: `reg` in bits 34:32, `data` in bits 31:0 (R88). -/
def encodeTwx (w : TReg × Data) : BitVec 35 := tregId w.1 ++ w.2

/-- The timer write a 35-bit transaction stands for, none for the ids 6 and 7 (R88, R92). -/
def decodeTwx (x : BitVec 35) : Option (TReg × Data) :=
  match tregOfId (x.extractLsb' 32 3) with
  | some r => some (r, x.extractLsb' 0 32)
  | none => none

/-- The table index as it is held in its 5 bits (10_state.md R27, 00_scope.md R13). -/
def indexBits (idx : Fin 21) : BitVec 5 := BitVec.ofNat 5 idx.val

/-- The table index 5 bits hold: 0 to 19, or 20 for "scanned all entries"; the values 21 to 31 are never produced and
hold none (R27, 20_memory.md R62). -/
def indexOfBits (bits : BitVec 5) : Option (Fin 21) :=
  if h : bits.toNat < 21 then some ⟨bits.toNat, h⟩ else none

/-- The bit of a schedule token: `E = 1`, `p = 0` (R96). -/
def tokenBit : Token → Bool
  | .edge => true
  | .poll => false

/-- The token of a schedule bit (R96). -/
def tokenOfBit : Bool → Token
  | true => .edge
  | false => .poll

/-- A schedule as its bit string, first token first (R96). -/
def encodeSchedule (ts : List Token) : List Bool := ts.map tokenBit

/-- The schedule a bit string stands for (R96). -/
def decodeSchedule (bits : List Bool) : List Token := bits.map tokenOfBit

end Sys2Proof
end

