-- ==== Sys2Proof/Machine/Params.lean ====
section
/-!
DEFINITION. The setting of the parameters this machine runs with (00_scope.md R11: the column "value in this
spec"), and the two reset values the source gives.
-/

namespace Sys2Proof.Machine

/-- The parameters of the machine: the spec's own value where it gives one (R11, D2, D3, D4, D5), the opaque
constants of `Config` where it says OPEN (D9, D10) and for the schedule (R37). Log entries 1, 2, 4, 5. -/
def params : Params where
  tune := Config.tune
  modeRun := Config.modeRun
  snapshotAtomic := false
  readOrder := .baseFirst
  toggleReset := true
  prevReset := 0x00
  schedule := Config.schedule

/-- `base` after reset: B0 (R21, R38). -/
def resetBase : Byte := 0x08

/-- `mult` after reset: M0 (R22, R38). -/
def resetMult : Byte := 0x00

end Sys2Proof.Machine
end

