-- ==== Sys2Proof/Machine/State.lean ====
section
/-!
DEFINITION. The state of the block, all of it plain data (10_state.md R20 to R31, R38, R39), what can stop a
step, and the state after reset (10_state.md R38, 70_reset_and_hazards.md R220).
-/

namespace Sys2Proof.Machine

/-- `TREG`: for each of the six write-only timer registers, the shadow of the last value the block wrote
to it (10_state.md R31, R33). -/
structure TimerRegs where
  mode : Data
  clksel : Data
  period : Data
  cmpa : Data
  cmpb : Data
  count : Data
deriving DecidableEq, Repr

/-- The state of the block. -/
structure State where
  /-- Shared: baseStatus, written by `ADVB` only (R21). -/
  base : Byte
  /-- Shared: multiplierStatus, written by `ADVM` only (R22). -/
  mult : Byte
  /-- The debounce toggle, private to the edge agent; `true` is "set" (R23, R32). -/
  tog : Bool
  /-- The phase register, the block's program counter (R28). -/
  ph : Phase
  /-- The sample latch between the two shared reads (R25). -/
  smp : Byte
  /-- The composite read in this pass (R26). -/
  cur : Byte
  /-- The composite of the last change (R26). -/
  prev : Byte
  /-- The table index of the scan, an integer 0..20 held in 5 bits, `indexBits` (R27); log
  entry 7. -/
  idx : Fin 21
  /-- The entry latch: the divisor (R29). -/
  ed : Data
  /-- The entry latch: the prescaler selector (R29). -/
  eps : Byte
  /-- The status output; bit i drives line i (R30); log entry 11. -/
  statusOut : Byte
  /-- The shadows of the timer registers (R31); log entry 13. -/
  treg : TimerRegs
  /-- `TLOG`: every timer write, oldest first (R31). -/
  tlog : List (TReg × Data)
  /-- Ghost counter: `EDGE` steps since reset (R39). -/
  nedge : Nat
  /-- Ghost counter: `ADVB` invocations since reset (R39). -/
  nadv : Nat
  /-- The MODEL's own field: which agent makes the coming steps (R17, R96), first step first. After its end the
  schedule of the parameters goes on (R37); log entry 1. -/
  sched : List Token
  /-- The MODEL's own field: how many steps of the schedule of the parameters have been made; log entry 1. -/
  slot : Nat
deriving DecidableEq, Repr

/-- Why a step could fault: nothing. "The list of exception causes is therefore empty, and a model's fault
type for this block has no constructor that a rule of the block raises" (60_exceptions.md R190). -/
inductive Fault
deriving DecidableEq, Repr

/-- Why a step could be refused. -/
inductive Refusal where
  /-- Raised by an arm of `exec` for an operation without a meaning; no arm is left that raises it. Safe. -/
  | notModelled (mnemonic : String)
  /-- Raised by `step` if the fetched word selected no operation (R92 asks to refuse it); no state can
  raise it, because the phase register is of the type of the thirteen phases; log entry 14. Safe. -/
  | undecodable (why : DecodeError)
deriving DecidableEq, Repr

/-- The state right after the reset event, for any setting of the parameters (R38, R220). The registers
the spec says hold no value take the opaque constants of `Config` (R222; log entry 3). -/
def State.resetWith (P : Params) : State where
  base := resetBase
  mult := resetMult
  tog := P.toggleReset
  ph := .rdb
  smp := Config.unwrittenSmp
  cur := Config.unwrittenCur
  prev := P.prevReset
  idx := Config.unwrittenIdx
  ed := Config.unwrittenEd
  eps := Config.unwrittenEps
  statusOut := Config.unwrittenStatus
  treg :=
    { mode := Config.unwrittenTimer .mode
      clksel := Config.unwrittenTimer .clksel
      period := Config.unwrittenTimer .period
      cmpa := Config.unwrittenTimer .cmpa
      cmpb := Config.unwrittenTimer .cmpb
      count := Config.unwrittenTimer .count }
  tlog := []
  nedge := 0
  nadv := 0
  sched := []
  slot := 0

/-- The machine right after reset (R38, R220). -/
def State.reset : State := State.resetWith params

end Sys2Proof.Machine
end

