-- ==== Sys2Proof/Machine/Operands.lean ====
section
/-!
DEFINITION. Every value an operation uses, assembled as 30_encoding.md R90 says: the shift `shl8` (R15), the
keys `SEQ` / `KEY` (R120, R52), the ROM and its two fields (R51, R87), the lookup contract (R54), the two
shared reads (R141, R142), the two duty-cycle values (R163, R164), the widened selector (R173) and the
constants of the timer writes.
-/

namespace Sys2Proof.Machine

/-- `shl8(a) = (a × 2) mod 256`: the bit shifted out of bit 7 is lost (00_scope.md R15). -/
def shl8 (a : Byte) : Byte := a <<< 1

/-- `BVAL(b)`, the base positions B0..B4 for b in 0..4 (41_state_advance.md R120, 30_encoding.md R82). -/
def bval (b : Nat) : Byte := (0x08 : Byte) <<< b

/-- `MVAL(m)`, the multiplier values M0..M3 for m in 0..3 (41_state_advance.md R120, 30_encoding.md R82). -/
def mval : Nat → Byte
  | 0 => 0x00
  | m + 1 => (0x01 : Byte) <<< m

/-- `SEQ(i)`, the reference enumeration: multiplier outer, base inner (41_state_advance.md R120). -/
def seq (i : Nat) : Byte := mval (i / 5) ||| bval (i % 5)

/-- `KEY(i) = SEQ(i)`, the hardwired key of table entry i (20_memory.md R52). -/
def key (i : Fin 20) : Byte := seq i.val

/-- The BaseField of a CompositeState, bits 7:3 in place (30_encoding.md R81). -/
def baseField (c : Byte) : Byte := c &&& 0xF8

/-- The MultiplierField of a CompositeState, bits 2:0 in place (30_encoding.md R81). -/
def multField (c : Byte) : Byte := c &&& 0x07

/-- `ROM[i]`: the divisor in bits 39:8, the selector in bits 7:0 (20_memory.md R51, 30_encoding.md R87). -/
def rom (P : Params) (i : Fin 20) : BitVec 40 := (P.tune i).div ++ (P.tune i).ps

/-- Bits 39:8 of a ROM word (R87). -/
def romDiv (w : BitVec 40) : Data := w.extractLsb' 8 32

/-- Bits 7:0 of a ROM word (R87). -/
def romPs (w : BitVec 40) : Byte := w.extractLsb' 0 8

/-- `LOOKUP(k)`: the least index whose key is k, or none for `NOTFOUND` (20_memory.md R54). -/
def lookup (k : Byte) : Option (Fin 20) := (List.finRange 20).find? (fun i => key i == k)

/-- The table entry the scan index points at; none at 20, "scanned all entries" (10_state.md R27). -/
def tableIndex (idx : Fin 21) : Option (Fin 20) :=
  if h : idx.val < 20 then some ⟨idx.val, h⟩ else none

/-- The shared register `RDB` reads (42_poll_lookup.md R141). -/
def firstField (P : Params) (s : State) : Byte :=
  match P.readOrder with
  | .baseFirst => s.base
  | .multFirst => s.mult

/-- The shared register `RDM` reads, the one `RDB` did not read (42_poll_lookup.md R142). -/
def secondField (P : Params) (s : State) : Byte :=
  match P.readOrder with
  | .baseFirst => s.mult
  | .multFirst => s.base

/-- `MODE_OFF` (00_scope.md R11, D9). -/
def modeOff : Data := 0x00000000

/-- `CLK_OFF` (00_scope.md R11, D9). -/
def clkOff : Data := 0x00000000

/-- The value `WCNT` writes to the running counter (43_timer_write_sequencer.md R171). -/
def countZero : Data := 0x00000000

/-- `DUTY_A(d) = floor((d + 25) / 50)` on unbounded integers (43_timer_write_sequencer.md R163); log
entry 10. -/
def dutyA (d : Data) : Data := BitVec.ofNat 32 ((d.toNat + 25) / 50)

/-- `DUTY_B(d) = floor((51 × d + 50) / 100)` on unbounded integers: the product needs up to 38 bits and is
not truncated (43_timer_write_sequencer.md R164); log entry 10. -/
def dutyB (d : Data) : Data := BitVec.ofNat 32 ((51 * d.toNat + 50) / 100)

/-- `zext_32(eps)`: all 8 bits passed, none masked (30_encoding.md R90, D23). -/
def zextSelector (ps : Byte) : Data := ps.setWidth 32

end Sys2Proof.Machine
end

