-- ==== Sys2Proof/Machine/Flags.lean ====
section
/-!
DEFINITION. The one stored flag, the debounce toggle, and the three conditions the poll agent branches on,
which are computed and used inside one step and stored nowhere (10_state.md R32).
-/

namespace Sys2Proof.Machine

/-- Does this event advance the state? It does when the toggle is clear (40_edge_debounce.md R110). -/
def eventAdvances (s : State) : Bool := !s.tog

/-- `cur == prev`, all 8 bits (42_poll_lookup.md R145). -/
def unchanged (s : State) : Bool := s.cur == s.prev

/-- `KEY(i) == cur` (42_poll_lookup.md R146). The third condition, `idx == 20`, is `tableIndex` answering
none. -/
def keyMatches (i : Fin 20) (s : State) : Bool := key i == s.cur

end Sys2Proof.Machine
end

