-- ==== Sys2Proof/Machine/Ops.lean ====
section
/-!
DEFINITION. The named operations over the registers: one write per register (00_scope.md R16), the timer write
`TW` (R16, 10_state.md R31), entering and leaving the edge handler (60_exceptions.md R195, R196), and the
sub-operations `ADVB` and `ADVM` (41_state_advance.md R122, R123). The block raises no exception (60_exceptions.md R190).
-/

namespace Sys2Proof.Machine

/-- `base <- v` (R21). -/
def State.setBase (s : State) (v : Byte) : State := { s with base := v }

/-- `mult <- v` (R22). -/
def State.setMult (s : State) (v : Byte) : State := { s with mult := v }

/-- `tog <- b` (R23). -/
def State.setTog (s : State) (b : Bool) : State := { s with tog := b }

/-- `ph <- p`, the block's change of program counter (R16, R28). -/
def State.setPh (s : State) (p : Phase) : State := { s with ph := p }

/-- `smp <- v` (R25). -/
def State.setSmp (s : State) (v : Byte) : State := { s with smp := v }

/-- `cur <- v` (R26). -/
def State.setCur (s : State) (v : Byte) : State := { s with cur := v }

/-- `prev <- v` (R26). -/
def State.setPrev (s : State) (v : Byte) : State := { s with prev := v }

/-- `idx <- k` (R27). -/
def State.setIdx (s : State) (k : Fin 21) : State := { s with idx := k }

/-- `ed <- ROM[i][39:8]`, `eps <- ROM[i][7:0]`: the entry latch takes a ROM word (R29, R146). -/
def State.latchEntry (s : State) (w : BitVec 40) : State := { s with ed := romDiv w, eps := romPs w }

/-- `status_out <- v` (R30). -/
def State.setStatus (s : State) (v : Byte) : State := { s with statusOut := v }

/-- `nedge <- nedge + 1` (R39, R110). -/
def State.countEdge (s : State) : State := { s with nedge := s.nedge + 1 }

/-- `nadv <- nadv + 1` (R39, R122). -/
def State.countAdv (s : State) : State := { s with nadv := s.nadv + 1 }

/-- The shadow of one timer register (R31). -/
def TimerRegs.get (t : TimerRegs) : TReg → Data
  | .mode => t.mode
  | .clksel => t.clksel
  | .period => t.period
  | .cmpa => t.cmpa
  | .cmpb => t.cmpb
  | .count => t.count

/-- The shadows after a whole-register write of one of them (R31, R55). -/
def TimerRegs.set (t : TimerRegs) (r : TReg) (v : Data) : TimerRegs :=
  match r with
  | .mode => { t with mode := v }
  | .clksel => { t with clksel := v }
  | .period => { t with period := v }
  | .cmpa => { t with cmpa := v }
  | .cmpb => { t with cmpb := v }
  | .count => { t with count := v }

/-- `TW(r, v)`: one transaction on the timer write port: it sets the shadow `TREG[r]` and appends `(r, v)` to
the write log (00_scope.md R16). -/
def State.tw (s : State) (r : TReg) (v : Data) : State :=
  { s with treg := s.treg.set r v, tlog := s.tlog ++ [(r, v)] }

/-- Entry of the edge handler: "Entry saves nothing that a rule can see and changes nothing but what `EDGE`
itself writes" (60_exceptions.md R195). -/
def enterHandler (s : State) : State := s

/-- Return from the edge handler: implicit, "nothing to restore"; the poll agent goes on from the phase in
`ph` (60_exceptions.md R196). -/
def leaveHandler (s : State) : State := s

/-- The value `ADVM` writes: M3 "or beyond" gives M0, M0 gives M1, else the next position (41_state_advance.md
R123, R126). -/
def nextMult (m : Byte) : Byte :=
  if 0x04 ≤ m.toNat then 0x00 else if m = 0x00 then 0x01 else shl8 m

/-- `ADVM`, the source's advanceMultiplier (41_state_advance.md R123). -/
def advanceMult (s : State) : State := s.setMult (nextMult s.mult)

/-- `ADVB`, the source's advanceBase: B4 goes back to B0 and steps the multiplier, any other value shifts
(41_state_advance.md R122, R126). -/
def advanceBase (s : State) : State :=
  if s.base = 0x80 then advanceMult (s.countAdv.setBase 0x08)
  else s.countAdv.setBase (shl8 s.base)

end Sys2Proof.Machine
end

