-- ==== Sys2Proof/Machine/Edge.lean ====
section
/-!
DEFINITION. The operation of the edge agent: `EDGE` (40_edge_debounce.md R110).
-/

namespace Sys2Proof.Machine

/-- What the handler does between entry and return: "if the toggle is clear, set it and call `advanceBase()`;
if set, clear it and do nothing" (R110). -/
def handleEvent (s : State) : State :=
  if eventAdvances s then advanceBase (s.countEdge.setTog true)
  else s.countEdge.setTog false

/-- The effect of `EDGE`, one atomic step (R110, R67). -/
def edgeEffect (s : State) : State := leaveHandler (handleEvent (enterHandler s))

/-- `EDGE` (R110). -/
def execEdge (s : State) : Host.Outcome State Fault Refusal := .next (edgeEffect s)

end Sys2Proof.Machine
end

