-- ==== Sys2Proof/Machine/Poll.lean ====
section
/-!
DEFINITION. The first five micro-operations of the poll agent: read, mirror, compare and scan
(42_poll_lookup.md R141 to R146). Each effect takes the parameters as an argument (00_scope.md R11) where its
rule names one.
-/

namespace Sys2Proof.Machine

/-- The effect of `RDB`: the first shared read (R141), or both reads in one step when `SNAPSHOT_ATOMIC`
is true (R143). -/
def rdbEffect (P : Params) (s : State) : State :=
  if P.snapshotAtomic then (s.setCur (s.base ||| s.mult)).setPh .mir
  else (s.setSmp (firstField P s)).setPh .rdm

/-- The effect of `RDM`: the second shared read and the union (R142). With `SNAPSHOT_ATOMIC` true the phase is
never entered (R143); log entry 8. -/
def rdmEffect (P : Params) (s : State) : State :=
  (s.setCur (s.smp ||| secondField P s)).setPh .mir

/-- The effect of `MIR` (R144). -/
def mirEffect (s : State) : State := (s.setStatus s.cur).setPh .cmp

/-- The effect of `CMP`: `prev` is updated before the lookup (R145). -/
def cmpEffect (s : State) : State :=
  if unchanged s then s.setPh .rdb
  else ((s.setPrev s.cur).setIdx 0).setPh .scan

/-- The effect of `SCAN`, one probe of the table: not found at index 20, a match latches the entry, else the
index moves up and the phase stays `SCAN` (R146). -/
def scanEffect (P : Params) (s : State) : State :=
  match tableIndex s.idx with
  | none => s.setPh .rdb
  | some i =>
    if keyMatches i s then (s.latchEntry (rom P i)).setPh .wmoff
    else (s.setIdx i.succ).setPh .scan

/-- `RDB` (R141, R143). -/
def execRdb (s : State) : Host.Outcome State Fault Refusal := .next (rdbEffect params s)

/-- `RDM` (R142). -/
def execRdm (s : State) : Host.Outcome State Fault Refusal := .next (rdmEffect params s)

/-- `MIR` (R144). -/
def execMir (s : State) : Host.Outcome State Fault Refusal := .next (mirEffect s)

/-- `CMP` (R145). -/
def execCmp (s : State) : Host.Outcome State Fault Refusal := .next (cmpEffect s)

/-- `SCAN` (R146). -/
def execScan (s : State) : Host.Outcome State Fault Refusal := .next (scanEffect params s)

end Sys2Proof.Machine
end

