-- ==== Sys2Proof/Machine/Timer.lean ====
section
/-!
DEFINITION. The eight write phases of the poll agent (43_timer_write_sequencer.md R160, R166 to R173): each makes one
timer write and names the phase that follows.
-/

namespace Sys2Proof.Machine

/-- The shape all eight write phases share: `TW(r, v)`, then `ph <- next` (R160). -/
def writePhase (r : TReg) (v : Data) (next : Phase) (s : State) : State := (s.tw r v).setPh next

/-- The effect of `WMOFF`: step 1, first write (R166). -/
def wmoffEffect (s : State) : State := writePhase .mode modeOff .wcoff s

/-- The effect of `WCOFF`: step 1, second write (R167). -/
def wcoffEffect (s : State) : State := writePhase .clksel clkOff .wper s

/-- The effect of `WPER`: step 2, first write (R168). -/
def wperEffect (s : State) : State := writePhase .period s.ed .wca s

/-- The effect of `WCA`: step 2, second write (R169). -/
def wcaEffect (s : State) : State := writePhase .cmpa (dutyA s.ed) .wcb s

/-- The effect of `WCB`: step 2, third write (R170). -/
def wcbEffect (s : State) : State := writePhase .cmpb (dutyB s.ed) .wcnt s

/-- The effect of `WCNT`: step 3 (R171). -/
def wcntEffect (s : State) : State := writePhase .count countZero .wmon s

/-- The effect of `WMON`: step 4 (R172). -/
def wmonEffect (P : Params) (s : State) : State := writePhase .mode P.modeRun .wcsel s

/-- The effect of `WCSEL`: step 5, after which the pass is over (R173). -/
def wcselEffect (s : State) : State := writePhase .clksel (zextSelector s.eps) .rdb s

/-- `WMOFF` (R166). -/
def execWmoff (s : State) : Host.Outcome State Fault Refusal := .next (wmoffEffect s)

/-- `WCOFF` (R167). -/
def execWcoff (s : State) : Host.Outcome State Fault Refusal := .next (wcoffEffect s)

/-- `WPER` (R168). -/
def execWper (s : State) : Host.Outcome State Fault Refusal := .next (wperEffect s)

/-- `WCA` (R169). -/
def execWca (s : State) : Host.Outcome State Fault Refusal := .next (wcaEffect s)

/-- `WCB` (R170). -/
def execWcb (s : State) : Host.Outcome State Fault Refusal := .next (wcbEffect s)

/-- `WCNT` (R171). -/
def execWcnt (s : State) : Host.Outcome State Fault Refusal := .next (wcntEffect s)

/-- `WMON` (R172). -/
def execWmon (s : State) : Host.Outcome State Fault Refusal := .next (wmonEffect params s)

/-- `WCSEL` (R173). -/
def execWcsel (s : State) : Host.Outcome State Fault Refusal := .next (wcselEffect s)

end Sys2Proof.Machine
end

