-- ==== Sys2Proof/Machine/Dispatch.lean ====
section
/-!
DEFINITION. The meaning of every operation: one arm per constructor of `Instr`.
-/

namespace Sys2Proof.Machine

def exec (i : Instr) (s : State) : Host.Outcome State Fault Refusal :=
  match i with
  -- the edge agent (40_edge_debounce.md)
  | .edge => Sys2Proof.Machine.execEdge s
  -- the poll agent: read, mirror, compare, scan (42_poll_lookup.md)
  | .rdb => Sys2Proof.Machine.execRdb s
  | .rdm => Sys2Proof.Machine.execRdm s
  | .mir => Sys2Proof.Machine.execMir s
  | .cmp => Sys2Proof.Machine.execCmp s
  | .scan => Sys2Proof.Machine.execScan s
  -- the poll agent: the timer write phases (43_timer_write_sequencer.md)
  | .wmoff => Sys2Proof.Machine.execWmoff s
  | .wcoff => Sys2Proof.Machine.execWcoff s
  | .wper => Sys2Proof.Machine.execWper s
  | .wca => Sys2Proof.Machine.execWca s
  | .wcb => Sys2Proof.Machine.execWcb s
  | .wcnt => Sys2Proof.Machine.execWcnt s
  | .wmon => Sys2Proof.Machine.execWmon s
  | .wcsel => Sys2Proof.Machine.execWcsel s

end Sys2Proof.Machine
end

