-- ==== Sys2Proof/Machine/Fetch.lean ====
section
/-!
DEFINITION. Which operation the next step performs: the step slot's strobe selects `EDGE` (30_encoding.md R86), else
the phase register selects the poll agent's micro-operation (10_state.md R28, 30_encoding.md R84). What stands in
the slot is the head of the tokens the state holds, then the schedule of the parameters (00_scope.md R17,
10_state.md R37, 30_encoding.md R96); log entry 1.
-/

namespace Sys2Proof.Machine

/-- The token of the coming step: the first one the state holds, and past their end the schedule's own (R37), which
may name either agent at every step, for ever (R225). -/
def slotToken (P : Params) (s : State) : Token :=
  match s.sched with
  | [] => P.schedule s.slot
  | t :: _ => t

/-- The word that selects the coming operation: the strobe when an event is delivered, else the phase code. -/
def fetch (P : Params) (s : State) : Word :=
  match slotToken P s with
  | .edge => .ev 1
  | .poll => .ph (phaseCode s.ph)

/-- The step slot is used up: a token the state holds, else a step of the schedule. -/
def State.popSlot (s : State) : State :=
  { s with sched := s.sched.tail, slot := if s.sched.isEmpty then s.slot + 1 else s.slot }

/-- A step slot is put before all others. -/
def State.pushSlot (s : State) (t : Token) : State := { s with sched := t :: s.sched }

/-- The state in which the coming step performs the operation a word selects: an event in the next slot for
format EV, the phase in the phase register and a poll-agent slot for format PH. A word that selects nothing
cannot be placed: no state holds it (R92). -/
def State.placeWord (s : State) (w : Word) : State :=
  match w with
  | .ev strobe => if strobe = 1 then s.pushSlot .edge else s
  | .ph code =>
    match phaseOfCode code with
    | some p => (s.pushSlot .poll).setPh p
    | none => s

end Sys2Proof.Machine
end

