-- ==== Sys2Proof/Machine/Step.lean ====
section
/-!
DEFINITION. One step of the machine: one atomic transition of one of the two agents (00_scope.md R17, 20_memory.md
R64). The step slot is used up, and the fetched operation runs.
-/

namespace Sys2Proof.Machine

/-- One step: fetch, decode, use up the slot, execute. -/
def step (s : State) : Host.Outcome State Fault Refusal :=
  match decode (fetch params s) with
  | .ok i => exec i s.popSlot
  | .error why => .refused (.undecodable why)

/-- `s` with the operation of a table row placed where `step` finds its next operation (log entry 6). -/
def State.withFetchWord (s : State) (nbits w : Nat) : State :=
  match tableWord nbits w with
  | some word => s.placeWord word
  | none => s

end Sys2Proof.Machine
end

