-- ==== Sys2Proof/Machine/Parametric.lean ====
section
/-!
DEFINITION. The machine with its parameters as arguments (00_scope.md R11: "taken by the model as arguments"), and
runs of it under a schedule (00_scope.md R17). `exec` and `step` are the case `P = params` (Sys2Proof/Laws/Step.lean).
Every operation is total (60_exceptions.md R190), so an effect is a function from states to states.
-/

namespace Sys2Proof.Machine

/-- The effect of an operation under a setting of the parameters. -/
def effect (P : Params) : Instr → State → State
  | .edge, s => edgeEffect s
  | .rdb, s => rdbEffect P s
  | .rdm, s => rdmEffect P s
  | .mir, s => mirEffect s
  | .cmp, s => cmpEffect s
  | .scan, s => scanEffect P s
  | .wmoff, s => wmoffEffect s
  | .wcoff, s => wcoffEffect s
  | .wper, s => wperEffect s
  | .wca, s => wcaEffect s
  | .wcb, s => wcbEffect s
  | .wcnt, s => wcntEffect s
  | .wmon, s => wmonEffect P s
  | .wcsel, s => wcselEffect s

/-- One step of the poll agent: the micro-operation its phase register selects (10_state.md R20, R28). -/
def pollStep (P : Params) (s : State) : State := effect P (phaseInstr s.ph) s

/-- One step of the agent a token names (00_scope.md R17, 30_encoding.md R96). -/
def tokenStep (P : Params) (s : State) : Token → State
  | .edge => edgeEffect s
  | .poll => pollStep P s

/-- One step under a setting of the parameters: the slot is used up, the agent it names steps. -/
def stepWith (P : Params) (s : State) : State := tokenStep P s.popSlot (slotToken P s)

/-- A run from a state under a schedule that stands outside the state (00_scope.md R17). -/
def runTokens (P : Params) (ts : List Token) (s : State) : State := ts.foldl (tokenStep P) s

/-- The state before step n of a run under an infinite schedule that stands outside the state (00_scope.md R17). -/
def runStream (P : Params) (ts : Nat → Token) (s : State) : Nat → State
  | 0 => s
  | n + 1 => tokenStep P (runStream P ts s n) (ts n)

/-- `E*n`: a burst of raw edge events. -/
def runEdges (P : Params) (n : Nat) (s : State) : State := runTokens P (List.replicate n .edge) s

/-- `p*n`: steps of the poll agent alone. -/
def runPolls (P : Params) (n : Nat) (s : State) : State := runTokens P (List.replicate n .poll) s

end Sys2Proof.Machine
end

