-- ==== Sys2Proof/Machine/Schedule.lean ====
section
/-!
DEFINITION. The notation for schedules, the block's "assembly" (30_encoding.md R96, R97): repeated tokens, a phase
mnemonic with its assertion, and the pseudo-tokens `POLL`, `PRESS` and `RESET`, expanded to `E` and `p`.
-/

namespace Sys2Proof.Machine

/-- One item of a written schedule. -/
inductive Item where
  /-- `E` or `p`, repeated: `E*n`, `p*n` (R96). -/
  | tokens (t : Token) (n : Nat)
  /-- A mnemonic of R85: a `p` together with the assertion that `ph` holds that phase before the step (R96). -/
  | phase (p : Phase)
  /-- `POLL`: one full pass from wherever `ph` stands (R97). -/
  | pollPass
  /-- `PRESS`: the two raw edges of one bounce-free press and release (R97). -/
  | press
  /-- `RESET`: the reset event; only as the first item (R97, R220). -/
  | reset
deriving DecidableEq, Repr

/-- How many poll-agent steps bring the phase back to `RDB`, counted up to a bound: the least n ≥ 1 of R97 when
the bound is large enough. -/
def passLengthUpTo (P : Params) : Nat → State → Nat
  | 0, _ => 0
  | n + 1, s =>
    if (pollStep P s).ph = .rdb then 1 else passLengthUpTo P n (pollStep P s) + 1

/-- No pass is longer than 32 steps: 4 to the comparison, 20 probes, 8 writes (42_poll_lookup.md R148). -/
def passLength (P : Params) (s : State) : Nat := passLengthUpTo P 32 s

/-- The tokens one item stands for at a state; none where its assertion fails, and none for `RESET`, which is
no step of either agent. -/
def expandItem (P : Params) (s : State) : Item → Option (List Token)
  | .tokens t n => some (List.replicate n t)
  | .phase p => if s.ph = p then some [.poll] else none
  | .pollPass => some (List.replicate (passLength P s) .poll)
  | .press => some [.edge, .edge]
  | .reset => none

/-- The tokens a written schedule without `RESET` stands for, each item expanded where the run then stands. -/
def expandItems (P : Params) : List Item → State → Option (List Token)
  | [], _ => some []
  | item :: rest, s =>
    match expandItem P s item with
    | none => none
    | some ts =>
      match expandItems P rest (runTokens P ts s) with
      | none => none
      | some more => some (ts ++ more)

/-- A whole program: with `RESET` first it starts at the reset state, else at the state given (R97). The answer
is the start state and the tokens. -/
def expandProgram (P : Params) (s : State) : List Item → Option (State × List Token)
  | .reset :: rest => (expandItems P rest (State.resetWith P)).map (fun ts => (State.resetWith P, ts))
  | items => (expandItems P items s).map (fun ts => (s, ts))

end Sys2Proof.Machine
end

