-- ==== Sys2Proof/Safety.lean ====
section
/-!
DEFINITION. What counts as a good state and a good run of the block, in the terms claims use: legal field values
(10_state.md R24), the shape of the write log (20_memory.md R70), the timer image of an entry
(43_timer_write_sequencer.md R174), quiescent points (70_reset_and_hazards.md R227), and which registers a later step
may still read (10_state.md R40, 60_exceptions.md R200).
-/

namespace Sys2Proof.Safety

open Sys2Proof.Machine

/-- One of the five base positions B0..B4, as a full byte (10_state.md R21). -/
def LegalBase (v : Byte) : Prop := ∃ b, b < 5 ∧ v = bval b

/-- One of the four multiplier values M0..M3, as a full byte (10_state.md R22). -/
def LegalMult (v : Byte) : Prop := ∃ m, m < 4 ∧ v = mval m

/-- Both shared registers hold legal field values (10_state.md R24). -/
def LegalFields (s : State) : Prop := LegalBase s.base ∧ LegalMult s.mult

/-- A value the register `RDB` reads may hold: a base position or a multiplier value, by `READ_ORDER`. -/
def LegalFirst (P : Params) (v : Byte) : Prop :=
  match P.readOrder with
  | .baseFirst => LegalBase v
  | .multFirst => LegalMult v

/-- The shared registers stand at step count k of the cycle (41_state_advance.md R124). -/
def AtCount (k : Nat) (s : State) : Prop := s.base = bval (k % 5) ∧ s.mult = mval (k / 5 % 4)

/-- The eight writes of one programming with a divisor and a selector, in order (43_timer_write_sequencer.md R160). -/
def writesOf (P : Params) (d : Data) (ps : Byte) : List (TReg × Data) :=
  [(.mode, modeOff), (.clksel, clkOff), (.period, d), (.cmpa, dutyA d), (.cmpb, dutyB d),
    (.count, countZero), (.mode, P.modeRun), (.clksel, zextSelector ps)]

/-- The eight writes of one programming with table entry i; `G(i)` of 95_test_vectors.md 2.2. -/
def entryWrites (P : Params) (i : Fin 20) : List (TReg × Data) :=
  writesOf P (P.tune i).div (P.tune i).ps

/-- The shadows after a complete programming with a divisor and a selector (43_timer_write_sequencer.md R174). -/
def imageOf (P : Params) (d : Data) (ps : Byte) : TimerRegs where
  mode := P.modeRun
  clksel := zextSelector ps
  period := d
  cmpa := dutyA d
  cmpb := dutyB d
  count := countZero

/-- The shadows after a complete programming with table entry i (43_timer_write_sequencer.md R174). -/
def entryImage (P : Params) (i : Fin 20) : TimerRegs := imageOf P (P.tune i).div (P.tune i).ps

/-- Is the phase one of the eight write phases (10_state.md R28)? -/
def isWritePhase : Phase → Bool
  | .rdb | .rdm | .mir | .cmp | .scan => false
  | .wmoff | .wcoff | .wper | .wca | .wcb | .wcnt | .wmon | .wcsel => true

/-- How many writes of the programming in progress have been made when the phase is the one given. -/
def writesDone : Phase → Nat
  | .rdb | .rdm | .mir | .cmp | .scan | .wmoff => 0
  | .wcoff => 1
  | .wper => 2
  | .wca => 3
  | .wcb => 4
  | .wcnt => 5
  | .wmon => 6
  | .wcsel => 7

/-- The timer register an operation stores to, none where it stores to none (43_timer_write_sequencer.md R166 to
R173). -/
def timerTarget : Instr → Option TReg
  | .edge | .rdb | .rdm | .mir | .cmp | .scan => none
  | .wmoff | .wmon => some .mode
  | .wcoff | .wcsel => some .clksel
  | .wper => some .period
  | .wca => some .cmpa
  | .wcb => some .cmpb
  | .wcnt => some .count

/-- The first value a log writes to a timer register, none where it writes none. -/
def firstWrite (r : TReg) (log : List (TReg × Data)) : Option Data :=
  (log.find? (fun w => w.1 == r)).map (·.2)

/-- The last value a log writes to a timer register, none where it writes none. -/
def lastWrite (r : TReg) (log : List (TReg × Data)) : Option Data :=
  (log.reverse.find? (fun w => w.1 == r)).map (·.2)

/-- A state at which the block has nothing to do (00_scope.md R19, 70_reset_and_hazards.md R227). -/
def Quiescent (s : State) : Prop := s.ph = .rdb ∧ s.prev = s.base ||| s.mult

/-- The write log as 20_memory.md R70 has it: the complete groups of the entries `done`, oldest first, then the
writes already made of the programming in progress. -/
def LogIs (P : Params) (done : List (Fin 20)) (s : State) : Prop :=
  s.tlog = done.flatMap (entryWrites P) ++ (writesOf P s.ed s.eps).take (writesDone s.ph)

/-- The invariant of the running block. -/
structure BlockInv (P : Params) (s : State) : Prop where
  /-- 10_state.md R24. -/
  legal : LegalFields s
  /-- Between the two reads the latch holds a legal field value (R25). -/
  sampled : s.ph = .rdm → LegalFirst P s.smp
  /-- What the pass works on is a key, torn or not (R147, R231). -/
  keyed : s.ph = .mir ∨ s.ph = .cmp ∨ s.ph = .scan → ∃ i, key i = s.cur
  /-- During the scan `prev` is the key looked for (R145), and no entry below the index has it (R146). -/
  scanned : s.ph = .scan → s.prev = s.cur ∧ ∀ i : Fin 20, i.val < s.idx.val → key i ≠ s.cur
  /-- The write log is complete groups and at most one incomplete group (R70); a programming in progress uses
  the latched entry of the key in `prev` (R161); outside a scan and a programming, `prev` is the key of the
  last complete group, or nothing was ever programmed and `prev` is as after reset (R145, R223). -/
  logged : ∃ done : List (Fin 20), LogIs P done s ∧
    (isWritePhase s.ph = true →
      ∃ i, key i = s.prev ∧ s.ed = (P.tune i).div ∧ s.eps = (P.tune i).ps) ∧
    (isWritePhase s.ph = false → s.ph ≠ .scan →
      (done = [] ∧ s.prev = 0x00) ∨ ∃ i, done.getLast? = some i ∧ key i = s.prev)
  /-- A shadow is the last logged write of its register (R31). -/
  shadowed : ∀ r v, lastWrite r s.tlog = some v → s.treg.get r = v

/-- The register may still be read before it is next written, by the phase the poll agent stands at
(10_state.md R40, 60_exceptions.md R200): `smp`. -/
def smpLive : Phase → Bool
  | .rdm => true
  | .rdb | .mir | .cmp | .scan
  | .wmoff | .wcoff | .wper | .wca | .wcb | .wcnt | .wmon | .wcsel => false

/-- As `smpLive`, for `cur`. -/
def curLive : Phase → Bool
  | .mir | .cmp | .scan => true
  | .rdb | .rdm | .wmoff | .wcoff | .wper | .wca | .wcb | .wcnt | .wmon | .wcsel => false

/-- As `smpLive`, for `idx`. -/
def idxLive : Phase → Bool
  | .scan => true
  | .rdb | .rdm | .mir | .cmp
  | .wmoff | .wcoff | .wper | .wca | .wcb | .wcnt | .wmon | .wcsel => false

/-- As `smpLive`, for `ed`. -/
def edLive : Phase → Bool
  | .wmoff | .wcoff | .wper | .wca | .wcb => true
  | .rdb | .rdm | .mir | .cmp | .scan | .wcnt | .wmon | .wcsel => false

/-- As `smpLive`, for `eps`. -/
def epsLive : Phase → Bool
  | .wmoff | .wcoff | .wper | .wca | .wcb | .wcnt | .wmon | .wcsel => true
  | .rdb | .rdm | .mir | .cmp | .scan => false

/-- Two states that differ at most in registers no coming step reads before it writes them, in the status
output and in the timer shadows, which no rule reads at all (R30, R31, R40). -/
structure AgreeOnRead (s t : State) : Prop where
  base : s.base = t.base
  mult : s.mult = t.mult
  tog : s.tog = t.tog
  ph : s.ph = t.ph
  prev : s.prev = t.prev
  tlog : s.tlog = t.tlog
  nedge : s.nedge = t.nedge
  nadv : s.nadv = t.nadv
  sched : s.sched = t.sched
  slot : s.slot = t.slot
  smp : smpLive s.ph = true → s.smp = t.smp
  cur : curLive s.ph = true → s.cur = t.cur
  idx : idxLive s.ph = true → s.idx = t.idx
  ed : edLive s.ph = true → s.ed = t.ed
  eps : epsLive s.ph = true → s.eps = t.eps

/-- The shared registers stand where the counted events bring them from reset with the toggle set: at the step count
of the advances (41_state_advance.md R124), which are half of the events, the toggle showing the odd one
(40_edge_debounce.md R111). -/
structure CountInv (s : State) : Prop where
  shared : AtCount s.nadv s
  halved : s.nadv = s.nedge / 2
  parity : s.tog = decide (s.nedge % 2 = 0)

/-- The poll agent steps infinitely often (70_reset_and_hazards.md R225, D26): the spec's one premise on an infinite
schedule, which may hold finitely or infinitely many events. -/
def Fair (ts : Nat → Token) : Prop := ∀ n, ∃ m, n ≤ m ∧ ts m = .poll

/-- An infinite sequence of states in which step n is made by the agent the schedule names. -/
def Follows (P : Params) (ts : Nat → Token) (run : Nat → State) : Prop :=
  ∀ n, run (n + 1) = tokenStep P (run n) (ts n)

/-- An infinite run (00_scope.md R17): it starts at the reset state, follows its schedule, and is fair (R225). -/
structure IsInfiniteRun (P : Params) (ts : Nat → Token) (run : Nat → State) : Prop where
  start : run 0 = State.resetWith P
  follows : Follows P ts run
  fair : Fair ts

/-- A state some run from reset reaches under a setting of the parameters (00_scope.md R19). -/
def Reachable (P : Params) (s : State) : Prop := ∃ ts, s = runTokens P ts (State.resetWith P)

end Sys2Proof.Safety
end

