-- ==== Sys2Proof/Certificates/Slice0/Obligations.lean ====
section
/-!
DEFINITION. The statements for the provers, from the spec's numbered rules. `exec` and `step` are the machine at its
setting `params`; `effect P`, `stepWith P` and `runTokens P` are the machine at any setting of the parameters.
-/

open Sys2Proof Sys2Proof.Machine Sys2Proof.Safety

/-! ### Reset -/

/-- 70_reset_and_hazards.md section 1: the values the reset event leaves in the registers that have one. The toggle,
`prev` and the phase are the spec's decisions D2, D3, D12; the source gives `base` and `mult`. -/
def Obligations.ResetLeavesTheListedValues : Prop :=
  State.reset.base = 0x08 ∧ State.reset.mult = 0x00 ∧ State.reset.tog = true ∧
  State.reset.ph = .rdb ∧ State.reset.prev = 0x00 ∧ State.reset.tlog = [] ∧
  State.reset.nedge = 0 ∧ State.reset.nadv = 0

/-- 70_reset_and_hazards.md section 1: the first pass after reset, with no event before it, takes 13 steps, mirrors the
key `0x08` and programs entry 0. A consequence the spec marks as derived, from its decision D3 (`prev` is
`0x00` after reset). -/
def Obligations.FirstPassAfterResetProgramsEntryZero : Prop :=
  runPolls params 13 State.reset =
    { State.reset with
      smp := 0x08, cur := 0x08, prev := 0x08, statusOut := 0x08, idx := 0
      ed := (Config.tune 0).div, eps := (Config.tune 0).ps
      treg := entryImage params 0, tlog := entryWrites params 0 }

/-! ### The result of each operation -/

/-- R110 with the two sub-operations it runs, R122 and R123: what an event does to the toggle, the counters and the
shared registers, on every byte. -/
def Obligations.EdgeTogglesAndAdvances : Prop :=
  encode .edge = .ev 1 ∧
  ∀ s : State, exec .edge s = .next (
    if s.tog = true then { s with tog := false, nedge := s.nedge + 1 }
    else if s.base = 0x80 then
      { s with
        tog := true, nedge := s.nedge + 1, nadv := s.nadv + 1, base := 0x08
        mult := if 4 ≤ s.mult.toNat then 0x00 else if s.mult = 0x00 then 0x01 else s.mult <<< 1 }
    else
      { s with tog := true, nedge := s.nedge + 1, nadv := s.nadv + 1, base := s.base <<< 1 })

/-- 42_poll_lookup.md section 2: the first shared read, by `READ_ORDER`. That the machine itself has separate reads and
reads `base` is the model's choice of a setting (log entry 4, DESIGN CHOICE; the spec's defaults D4, D5). -/
def Obligations.RdbLatchesTheFirstField : Prop :=
  encode .rdb = .ph 0b0000 ∧
  (∀ (P : Params) (s : State), P.snapshotAtomic = false →
    effect P .rdb s =
      { s with smp := if P.readOrder = .baseFirst then s.base else s.mult, ph := .rdm }) ∧
  ∀ s : State, exec .rdb s = .next { s with smp := s.base, ph := .rdm }

/-- 42_poll_lookup.md section 2: the second shared read joins the latch with the register `RDB` did not read. That the
machine itself reads `mult` here is the model's choice of a setting (log entry 4, DESIGN CHOICE; D4, D5). -/
def Obligations.RdmFormsTheUnion : Prop :=
  encode .rdm = .ph 0b0001 ∧
  (∀ (P : Params) (s : State), P.snapshotAtomic = false →
    effect P .rdm s =
      { s with cur := s.smp ||| (if P.readOrder = .baseFirst then s.mult else s.base), ph := .mir }) ∧
  ∀ s : State, exec .rdm s = .next { s with cur := s.smp ||| s.mult, ph := .mir }

/-- R143: with `SNAPSHOT_ATOMIC` true the phase `RDB` performs both reads in one step, leaves the latch alone and goes
to `MIR`; no step then enters `RDM`. -/
def Obligations.FusedReadTakesBothFields : Prop :=
  ∀ (P : Params) (s : State), P.snapshotAtomic = true →
    effect P .rdb s = { s with cur := s.base ||| s.mult, ph := .mir } ∧
    (pollStep P s).ph ≠ .rdm

/-- R144. -/
def Obligations.MirMirrorsTheKey : Prop :=
  encode .mir = .ph 0b0010 ∧
  ∀ s : State, exec .mir s = .next { s with statusOut := s.cur, ph := .cmp }

/-- R145. -/
def Obligations.CmpTakesAChangedKey : Prop :=
  encode .cmp = .ph 0b0011 ∧
  ∀ s : State, exec .cmp s = .next (
    if s.cur = s.prev then { s with ph := .rdb }
    else { s with prev := s.cur, idx := 0, ph := .scan })

/-- R146: the three outcomes of a probe: not found at 20; a match latches the entry; else the index moves up. -/
def Obligations.ScanProbesOneEntry : Prop :=
  encode .scan = .ph 0b0100 ∧
  (∀ s : State, s.idx = 20 → exec .scan s = .next { s with ph := .rdb }) ∧
  (∀ (s : State) (i : Fin 20), s.idx.val = i.val → key i = s.cur →
    exec .scan s =
      .next { s with ed := (Config.tune i).div, eps := (Config.tune i).ps, ph := .wmoff }) ∧
  (∀ (s : State) (i : Fin 20), s.idx.val = i.val → key i ≠ s.cur →
    exec .scan s = .next { s with idx := i.succ, ph := .scan })

/-- R166, R167: step 1, the mode is neutralised, then the selection is cleared (the zero values are D9). -/
def Obligations.StopWritesModeThenSelector : Prop :=
  encode .wmoff = .ph 0b0101 ∧ encode .wcoff = .ph 0b0110 ∧
  ∀ s : State,
    exec .wmoff s =
      .next { s with treg := { s.treg with mode := 0 }, tlog := s.tlog ++ [(.mode, 0)], ph := .wcoff } ∧
    exec .wcoff s =
      .next { s with
        treg := { s.treg with clksel := 0 }, tlog := s.tlog ++ [(.clksel, 0)], ph := .wper }

/-- R168, R169, R170: step 2, the period and the two compare values, which are `floor((d + 25) / 50)` and
`floor((51 d + 50) / 100)` of the latched divisor. -/
def Obligations.LoadWritesPeriodAndCompares : Prop :=
  encode .wper = .ph 0b0111 ∧ encode .wca = .ph 0b1000 ∧ encode .wcb = .ph 0b1001 ∧
  ∀ s : State,
    exec .wper s =
      .next { s with
        treg := { s.treg with period := s.ed }, tlog := s.tlog ++ [(.period, s.ed)], ph := .wca } ∧
    exec .wca s =
      .next { s with
        treg := { s.treg with cmpa := BitVec.ofNat 32 ((s.ed.toNat + 25) / 50) }
        tlog := s.tlog ++ [(.cmpa, BitVec.ofNat 32 ((s.ed.toNat + 25) / 50))], ph := .wcb } ∧
    exec .wcb s =
      .next { s with
        treg := { s.treg with cmpb := BitVec.ofNat 32 ((51 * s.ed.toNat + 50) / 100) }
        tlog := s.tlog ++ [(.cmpb, BitVec.ofNat 32 ((51 * s.ed.toNat + 50) / 100))], ph := .wcnt }

/-- R171, R172, R173: steps 3, 4 and 5, the counter is cleared, the mode is switched on, the selector is applied
last and the phase returns to `RDB`. -/
def Obligations.StartWritesCountModeSelector : Prop :=
  encode .wcnt = .ph 0b1010 ∧ encode .wmon = .ph 0b1011 ∧ encode .wcsel = .ph 0b1100 ∧
  ∀ s : State,
    exec .wcnt s =
      .next { s with
        treg := { s.treg with count := 0 }, tlog := s.tlog ++ [(.count, 0)], ph := .wmon } ∧
    exec .wmon s =
      .next { s with
        treg := { s.treg with mode := Config.modeRun }
        tlog := s.tlog ++ [(.mode, Config.modeRun)], ph := .wcsel } ∧
    exec .wcsel s =
      .next { s with
        treg := { s.treg with clksel := s.eps.setWidth 32 }
        tlog := s.tlog ++ [(.clksel, s.eps.setWidth 32)], ph := .rdb }

/-- R190: no exception cause exists, and every operation is total on every register content. -/
def Obligations.EveryOperationIsTotal : Prop :=
  (∀ _ : Fault, False) ∧ ∀ (i : Instr) (s : State), ∃ t, exec i s = .next t

/-! ### Frames -/

/-- 60_exceptions.md section 6, column "written by", for every operation under every setting: a register is unchanged
by every operation the table does not list as writing it. -/
def Obligations.OnlyTheListedOperationsWrite : Prop :=
  ∀ (P : Params) (i : Instr) (s : State), let t := effect P i s
    (i ≠ .edge → t.base = s.base ∧ t.mult = s.mult ∧ t.tog = s.tog ∧
      t.nedge = s.nedge ∧ t.nadv = s.nadv) ∧
    (i = .edge → t.ph = s.ph) ∧
    (i ≠ .rdb ∨ P.snapshotAtomic = true → t.smp = s.smp) ∧
    (i ≠ .rdm → ¬(i = .rdb ∧ P.snapshotAtomic = true) → t.cur = s.cur) ∧
    (i ≠ .cmp → t.prev = s.prev) ∧
    (i ≠ .cmp → i ≠ .scan → t.idx = s.idx) ∧
    (i ≠ .scan → t.ed = s.ed ∧ t.eps = s.eps) ∧
    (i ≠ .mir → t.statusOut = s.statusOut) ∧
    (timerTarget i = none → t.treg = s.treg ∧ t.tlog = s.tlog) ∧
    t.sched = s.sched ∧ t.slot = s.slot

/-- Section 4 of 60_exceptions.md: an event leaves every register of the poll agent, its phase, the status output,
the timer shadows and the write log as they were. -/
def Obligations.EventLeavesThePollAgentAlone : Prop :=
  ∀ s : State, ∃ t, exec .edge s = .next t ∧
    t.ph = s.ph ∧ t.smp = s.smp ∧ t.cur = s.cur ∧ t.prev = s.prev ∧ t.idx = s.idx ∧
    t.ed = s.ed ∧ t.eps = s.eps ∧ t.statusOut = s.statusOut ∧ t.treg = s.treg ∧ t.tlog = s.tlog ∧
    t.sched = s.sched ∧ t.slot = s.slot

/-- 43_timer_write_sequencer.md section 3, 20_memory.md section 3: an operation writes the one timer register its rule
names and logs that write; every other shadow reads as before; an operation that stores nothing logs nothing. -/
def Obligations.EachWritePhaseTouchesOneTimerRegister : Prop :=
  ∀ (i : Instr) (s : State), ∃ t, exec i s = .next t ∧
    (∀ q, timerTarget i ≠ some q → t.treg.get q = s.treg.get q) ∧
    (∀ r, timerTarget i = some r → t.tlog = s.tlog ++ [(r, t.treg.get r)]) ∧
    (timerTarget i = none → t.tlog = s.tlog)

/-- 10_state.md section 4: a shadow reads back the last value written to it, and no other shadow changes. -/
def Obligations.ShadowReadsBackTheWrite : Prop :=
  ∀ (s : State) (r q : TReg) (v : Data),
    (s.tw r v).treg.get q = (if q = r then v else s.treg.get q) ∧
    (s.tw r v).tlog = s.tlog ++ [(r, v)]

/-! ### The step, the schedule and the phases -/

/-- 00_scope.md section 5, 30_encoding.md section 4: a step runs the decoded operation, an `EDGE` when the slot holds an
event, else the micro-operation of the phase; the slot is used up. That the state holds the tokens of the coming
steps, and the schedule of the parameters follows them, is the model's choice (log entry 1). -/
def Obligations.StepRunsTheDecodedOperation : Prop :=
  (∀ (s : State) (i : Instr), decode (fetch params s) = .ok i → step s = exec i s.popSlot) ∧
  (∀ (s : State) (rest : List Token), s.sched = .edge :: rest →
    fetch params s = .ev 1 ∧ step s = exec .edge { s with sched := rest }) ∧
  (∀ (s : State) (rest : List Token), s.sched = .poll :: rest →
    fetch params s = .ph (phaseCode s.ph) ∧ step s = exec (phaseInstr s.ph) { s with sched := rest }) ∧
  (∀ s : State, s.sched = [] →
    fetch params s = (match params.schedule s.slot with
      | .edge => .ev 1
      | .poll => .ph (phaseCode s.ph)) ∧
    step s = exec (match params.schedule s.slot with
      | .edge => .edge
      | .poll => phaseInstr s.ph) { s with slot := s.slot + 1 })

/-- 00_scope.md section 5, 20_memory.md section 6: running the machine over a schedule held in the state is the
interleaving of the two agents' steps the schedule names, and no step stops. -/
def Obligations.RunIsTheInterleavingOfTheSchedule : Prop :=
  ∀ (ts rest : List Token) (s : State),
    Host.Core.run core ts.length { s with sched := ts ++ rest } =
      .next (runTokens params ts { s with sched := rest })

/-- 00_scope.md section 5, 70_reset_and_hazards.md section 3: the machine past the tokens its state holds makes the steps
of its schedule, as many as are asked for; every infinite run is what the machine makes from reset at the setting
with that schedule; and what it makes at a setting with a fair schedule is an infinite run. That the schedule stands
in the parameters, with a counter in the state, is the model's choice (log entry 1). -/
def Obligations.InfiniteRunsAreTheScheduledRuns : Prop :=
  (∀ (n : Nat) (s : State), s.sched = [] →
    Host.Core.run core n s =
      .next { runStream params (fun k => params.schedule (s.slot + k)) s n with slot := s.slot + n }) ∧
  (∀ (P : Params) (ts : Nat → Token) (run : Nat → State), IsInfiniteRun P ts run →
    ∀ n, (stepWith { P with schedule := ts })^[n] (State.resetWith P) = { run n with slot := n }) ∧
  ∀ P : Params, Fair P.schedule →
    IsInfiniteRun P P.schedule (fun n => { (stepWith P)^[n] (State.resetWith P) with slot := 0 })

/-- 70_reset_and_hazards.md section 3: no step blocks, so under a fair schedule, with finitely or infinitely many events,
the poll agent starts a new pass again and again, from whatever state. -/
def Obligations.FairRunsStartPassesForEver : Prop :=
  ∀ (P : Params) (ts : Nat → Token) (run : Nat → State), Fair ts → Follows P ts run →
    ∀ n, ∃ m, n ≤ m ∧ ts m = .poll ∧ (run m).ph = .rdb

/-- 10_state.md section 3, 42_poll_lookup.md section 6: the listed phase transitions, and no other. -/
def Obligations.PhaseMovesOnlyAsListed : Prop :=
  ∀ s : State, ∃ t, step s = .next t ∧
    (slotToken params s = .edge → t.ph = s.ph) ∧
    (slotToken params s = .poll →
      (s.ph, t.ph) ∈ ([(.rdb, .rdm), (.rdm, .mir), (.mir, .cmp), (.cmp, .rdb), (.cmp, .scan),
        (.scan, .scan), (.scan, .rdb), (.scan, .wmoff), (.wmoff, .wcoff), (.wcoff, .wper),
        (.wper, .wca), (.wca, .wcb), (.wcb, .wcnt), (.wcnt, .wmon), (.wmon, .wcsel),
        (.wcsel, .rdb)] : List (Phase × Phase)))

/-- 20_memory.md section 6: an event that comes at a phase other than the two reads can be moved past the poll agent's
step. The spec marks the rule as derived. -/
def Obligations.EventsCommuteWithNonReadingSteps : Prop :=
  ∀ (P : Params) (s : State), s.ph ≠ .rdb → s.ph ≠ .rdm →
    pollStep P (edgeEffect s) = edgeEffect (pollStep P s)

/-- 10_state.md section 2 and section 5: the toggle is private to the edge agent: a step of the poll agent does the
same whatever the toggle and the ghost counters hold, and leaves them alone. -/
def Obligations.PollAgentNeverSeesTheToggle : Prop :=
  ∀ (P : Params) (s : State) (b : Bool) (m n : Nat),
    pollStep P { s with tog := b, nedge := m, nadv := n } =
      { pollStep P s with tog := b, nedge := m, nadv := n }

/-- 10_state.md section 13: no run reads a register that no rule has written. Two states that differ only in registers
not live at the phase, in the status output and in the timer shadows, stay so under every schedule, and so write
the same log. The spec marks the rule as derived. -/
def Obligations.UnwrittenRegistersAreNeverRead : Prop :=
  ∀ (P : Params) (ts : List Token) (s t : State), AgreeOnRead s t →
    AgreeOnRead (runTokens P ts s) (runTokens P ts t)

/-! ### Encodings -/

/-- R85: the thirteen phase codes, and the strobe of R86. -/
def Obligations.OperationWordsDecodeAsTabled : Prop :=
  decode (.ev 1) = .ok .edge ∧
  decode (.ph 0b0000) = .ok .rdb ∧ decode (.ph 0b0001) = .ok .rdm ∧
  decode (.ph 0b0010) = .ok .mir ∧ decode (.ph 0b0011) = .ok .cmp ∧
  decode (.ph 0b0100) = .ok .scan ∧ decode (.ph 0b0101) = .ok .wmoff ∧
  decode (.ph 0b0110) = .ok .wcoff ∧ decode (.ph 0b0111) = .ok .wper ∧
  decode (.ph 0b1000) = .ok .wca ∧ decode (.ph 0b1001) = .ok .wcb ∧
  decode (.ph 0b1010) = .ok .wcnt ∧ decode (.ph 0b1011) = .ok .wmon ∧
  decode (.ph 0b1100) = .ok .wcsel

/-- 30_encoding.md sections 3 and 4: every operation has one word and every word that decodes is the word of what it
decodes to. -/
def Obligations.DecodeInvertsEncode : Prop :=
  ∀ (w : Word) (i : Instr), decode w = .ok i ↔ w = encode i

/-- R92, with the strobe of 0 that selects nothing: a phase code is refused exactly when it is one of the three reserved
ones, no phase has such a code, reset has the code `0000`, and no timer register has the id 6 or 7. -/
def Obligations.ReservedCodesAreRefused : Prop :=
  (∀ c : BitVec 4, 13 ≤ c.toNat ↔ decode (.ph c) = .error (.reservedPhaseCode c)) ∧
  decode (.ev 0) = .error .noEvent ∧
  (∀ p : Phase, (phaseCode p).toNat < 13) ∧ phaseCode State.reset.ph = 0b0000 ∧
  (∀ r : TReg, (tregId r).toNat < 6) ∧
  (∀ c : BitVec 3, 6 ≤ c.toNat ↔ tregOfId c = none)

/-- R88: a timer write and its 35-bit transaction determine each other, `reg` in bits 34:32 and
`data` in bits 31:0. -/
def Obligations.TransactionsRoundTrip : Prop :=
  (∀ w : TReg × Data, (encodeTwx w).extractLsb' 32 3 = tregId w.1 ∧
    (encodeTwx w).extractLsb' 0 32 = w.2) ∧
  ∀ (x : BitVec 35) (w : TReg × Data), decodeTwx x = some w ↔ x = encodeTwx w

/-- 10_state.md section 3, 00_scope.md section 4: the table index and its 5 bits determine each other; the values 21 to 31
hold no index. -/
def Obligations.TableIndexRoundTrips : Prop :=
  ∀ (bits : BitVec 5) (idx : Fin 21),
    (indexOfBits bits = some idx ↔ bits = indexBits idx) ∧ (indexBits idx).toNat = idx.val ∧
    (indexOfBits bits = none ↔ 21 ≤ bits.toNat)

/-- 30_encoding.md section 10: a schedule and its bit string determine each other, `E = 1`, `p = 0`. -/
def Obligations.ScheduleBitsRoundTrip : Prop :=
  (∀ ts : List Token, decodeSchedule (encodeSchedule ts) = ts) ∧
  ∀ bits : List Bool, encodeSchedule (decodeSchedule bits) = bits

/-! ### The enumeration, the keys and the lookup -/

/-- 30_encoding.md section 2: the 20 keys in enumeration order. The spec marks the table as derived. -/
def Obligations.KeysAreTheTabledBytes : Prop :=
  (List.finRange 20).map key =
    [0x08, 0x10, 0x20, 0x40, 0x80, 0x09, 0x11, 0x21, 0x41, 0x81,
      0x0A, 0x12, 0x22, 0x42, 0x82, 0x0C, 0x14, 0x24, 0x44, 0x84]

/-- 41_state_advance.md section 1: `SEQ` is injective on 0..19, and its image is the set of legal CompositeStates. The
spec marks the rule as derived. -/
def Obligations.KeysAreTheLegalComposites : Prop :=
  (∀ i j : Fin 20, key i = key j → i = j) ∧
  ∀ c : Byte, legalComposite c = true ↔ ∃ i, key i = c

/-- R54: `LOOKUP(k)` is the least index whose key is k, it is the only one, and it is `NOTFOUND` for 236 of the 256
bytes, those that are not keys. -/
def Obligations.LookupAnswersTheLeastMatch : Prop :=
  (∀ (k : Byte) (i : Fin 20), lookup k = some i ↔ key i = k ∧ ∀ j : Fin 20, j < i → key j ≠ k) ∧
  (∀ (k : Byte) (i j : Fin 20), lookup k = some i → key j = k → j = i) ∧
  (∀ k : Byte, lookup k = none ↔ ∀ i : Fin 20, key i ≠ k) ∧
  ((List.range 256).filter (fun n => (lookup (BitVec.ofNat 8 n)).isNone)).length = 236

/-- 10_state.md section 2: in a state with legal fields the union is a key, and both fields can be read back from it.
The spec marks the rule as derived. -/
def Obligations.LegalUnionIsAKeyAndLossless : Prop :=
  ∀ s : State, LegalFields s →
    (∃ i, key i = s.base ||| s.mult) ∧
    baseField (s.base ||| s.mult) = s.base ∧ multField (s.base ||| s.mult) = s.mult

/-- 41_state_advance.md section 4: the two independently expressed enumerations agree: after k advances from the
initial pair the registers stand at the k-th element of the enumeration. The spec marks the rule as derived. -/
def Obligations.AdvancesFollowTheEnumeration : Prop :=
  ∀ (k : Nat) (s : State), s.base = 0x08 → s.mult = 0x00 →
    let t := advanceBase^[k] s
    t.base ||| t.mult = seq (k % 20) ∧ t.base = bval (k % 5) ∧ t.mult = mval (k / 5 % 4) ∧
    t.nadv = s.nadv + k

/-- 41_state_advance.md section 4: from a state with legal fields, n advances return both fields exactly when 20
divides n. The spec marks the rule as derived. -/
def Obligations.CycleLengthIsTwenty : Prop :=
  ∀ (s : State) (n : Nat), LegalFields s →
    ((advanceBase^[n] s).base = s.base ∧ (advanceBase^[n] s).mult = s.mult ↔ 20 ∣ n)

/-- 40_edge_debounce.md section 2: of n events from any state, the advances are half of n, rounded down when the toggle
starts set and up when it starts clear; the toggle ends as n's parity says; the shared registers are those of that
many advances. The spec marks the rule as derived. -/
def Obligations.EventsAdvanceInPairs : Prop :=
  ∀ (P : Params) (n : Nat) (s : State),
    let t := runEdges P n s
    let k := if s.tog = true then n / 2 else (n + 1) / 2
    t.nadv = s.nadv + k ∧ t.nedge = s.nedge + n ∧
    t.tog = (if n % 2 = 0 then s.tog else !s.tog) ∧
    t.base = (advanceBase^[k] s).base ∧ t.mult = (advanceBase^[k] s).mult

/-- 40_edge_debounce.md section 2: 40 events make exactly 20 advances and return the whole state to what it was, but
for the ghost counters, from any state with legal fields. -/
def Obligations.FortyEventsReturnTheState : Prop :=
  ∀ (P : Params) (s : State), LegalFields s →
    runEdges P 40 s = { s with nedge := s.nedge + 40, nadv := s.nadv + 20 }

/-! ### Passes of the loop -/

/-- 42_poll_lookup.md section 5: the scan computes `LOOKUP(cur)`: `i + 1` probes end in `WMOFF` with entry i latched, or
21 probes end in `RDB` with nothing latched. The spec marks the rule as derived. -/
def Obligations.ScanComputesTheLookup : Prop :=
  ∀ (P : Params) (s : State), s.ph = .scan → s.idx = 0 →
    (∀ i : Fin 20, lookup s.cur = some i →
      runPolls P (i.val + 1) s =
        { s with idx := i.castSucc, ed := (P.tune i).div, eps := (P.tune i).ps, ph := .wmoff }) ∧
    (lookup s.cur = none → runPolls P 21 s = { s with idx := 20, ph := .rdb })

/-- 42_poll_lookup.md section 1 and section 5: one pass of the loop from its top, with no event in it: how many steps it
takes and everything it does. -/
def Obligations.OnePassOfTheLoop : Prop :=
  ∀ (P : Params) (s : State), s.ph = .rdb →
    let k := s.base ||| s.mult
    let fused := if P.snapshotAtomic = true then 1 else 0
    let r := { s with
      smp := if P.snapshotAtomic = true then s.smp else firstField P s, cur := k, statusOut := k }
    (k = s.prev → passLength P s = 4 - fused ∧ runPolls P (4 - fused) s = r) ∧
    (k ≠ s.prev → ∀ i, lookup k = some i →
      passLength P s = 13 + i.val - fused ∧
      runPolls P (13 + i.val - fused) s =
        { r with
          prev := k, idx := i.castSucc, ed := (P.tune i).div, eps := (P.tune i).ps
          treg := entryImage P i, tlog := s.tlog ++ entryWrites P i }) ∧
    (k ≠ s.prev → lookup k = none →
      passLength P s = 25 - fused ∧ runPolls P (25 - fused) s = { r with prev := k, idx := 20 })

/-- 30_encoding.md section 10: `POLL` is the least number of poll-agent steps, at least one, that brings the phase back
to `RDB`; from every state there is one, and it is at most 32. -/
def Obligations.PassLengthIsTheLeastReturn : Prop :=
  ∀ (P : Params) (s : State),
    1 ≤ passLength P s ∧ passLength P s ≤ 32 ∧ (runPolls P (passLength P s) s).ph = .rdb ∧
    ∀ m, 1 ≤ m → m < passLength P s → (runPolls P m s).ph ≠ .rdb

/-- 43_timer_write_sequencer.md section 4: eight steps of the poll agent from `WMOFF`, with whatever events among them,
write the eight values of the latched entry in order and leave the shadows at its image; the events do what they
would have done alone. The spec marks the rule as derived. -/
def Obligations.ProgrammingRunsThroughEvents : Prop :=
  ∀ (P : Params) (ts : List Token) (s : State), s.ph = .wmoff → ts.count .poll = 8 →
    let t := runTokens P ts s
    let e := runEdges P (ts.count .edge) s
    t = { e with
      ph := .rdb, treg := imageOf P s.ed s.eps, tlog := s.tlog ++ writesOf P s.ed s.eps }

/-- 70_reset_and_hazards.md section 3: from a quiescent point, as long as no event occurs, no further step writes the
timer, and the key stays what it was. The spec marks the rule as derived. -/
def Obligations.QuiescentBlockStaysSilent : Prop :=
  ∀ (P : Params) (s : State) (n : Nat), Quiescent s →
    (runPolls P n s).tlog = s.tlog ∧ (runPolls P n s).treg = s.treg ∧
    (runPolls P n s).prev = s.prev ∧
    (runPolls P n s).base ||| (runPolls P n s).mult = s.base ||| s.mult

/-- 70_reset_and_hazards.md section 3: if no event occurs any more, a quiescent point is reached within two passes, from
every state. The spec marks the rule as derived. -/
def Obligations.TwoPassesReachQuiescence : Prop :=
  ∀ (P : Params) (s : State),
    let s1 := runPolls P (passLength P s) s
    Quiescent (runPolls P (passLength P s1) s1)

/-- 70_reset_and_hazards.md section 4: twenty advances between two passes look like none: after 40 events at a
quiescent point the block never writes the timer again while no event occurs. The spec marks the rule as derived. -/
def Obligations.TwentyAdvancesLookLikeNone : Prop :=
  ∀ (P : Params) (s : State) (n : Nat), LegalFields s → Quiescent s →
    (runPolls P n (runEdges P 40 s)).tlog = s.tlog

/-- 70_reset_and_hazards.md section 4: the torn read. With two separate reads, n events between them, from step count k
of the cycle, j of them advances, the composite joins the old first field with the new second field; it is always
a key; it equals the old key exactly when the second field did not change, and the new key exactly when the first
did not. The spec marks the rule as derived. -/
def Obligations.TornReadIsAlwaysAKey : Prop :=
  ∀ (P : Params) (s : State) (k n : Nat), P.snapshotAtomic = false → s.ph = .rdb → AtCount k s →
    let e := runEdges P n (pollStep P s)
    let t := pollStep P e
    let j := e.nadv - s.nadv
    t.cur = (match P.readOrder with
      | .baseFirst => bval (k % 5) ||| mval ((k + j) / 5 % 4)
      | .multFirst => mval (k / 5 % 4) ||| bval ((k + j) % 5)) ∧
    (∃ i, key i = t.cur) ∧
    (t.cur = s.base ||| s.mult ↔ (match P.readOrder with
      | .baseFirst => e.mult = s.mult
      | .multFirst => e.base = s.base)) ∧
    (t.cur = e.base ||| e.mult ↔ (match P.readOrder with
      | .baseFirst => e.base = s.base
      | .multFirst => e.mult = s.mult))

/-! ### Invariants of the running block -/

/-- Sections 2 and 6 of 10_state.md and 20_memory.md: legal fields, legal reads, the shape of the write log and the
shadows hold after every step from every state in which they hold. -/
def Obligations.StepKeepsTheBlockInvariant : Prop :=
  ∀ s t : State, BlockInv params s → step s = .next t → BlockInv params t

/-- The same at every setting of the parameters. -/
def Obligations.EverySettingKeepsTheBlockInvariant : Prop :=
  ∀ (P : Params) (s : State), BlockInv P s → BlockInv P (stepWith P s)

/-- The invariant holds right after reset (with `prev` reset to `0x00`, decision D3). -/
def Obligations.ResetMeetsTheBlockInvariant : Prop :=
  BlockInv params State.reset ∧
  ∀ P : Params, P.prevReset = 0x00 → BlockInv P (State.resetWith P)

/-- 41_state_advance.md section 4 and 40_edge_debounce.md section 2 as one invariant: every step of either agent keeps the
shared registers at the step count of the advances, the advances at half of the events and the toggle at their
parity. The spec marks both rules as derived. -/
def Obligations.StepKeepsTheCount : Prop :=
  (∀ s t : State, CountInv s → step s = .next t → CountInv t) ∧
  ∀ (P : Params) (s : State), CountInv s → CountInv (stepWith P s)

/-- The count invariant holds right after reset (with the toggle reset to set, the spec's decision D2, log entry 5). -/
def Obligations.ResetMeetsTheCount : Prop :=
  CountInv State.reset ∧ ∀ P : Params, P.toggleReset = true → CountInv (State.resetWith P)

/-- 42_poll_lookup.md section 5, 60_exceptions.md section 1: a scan never ends in `NOTFOUND` while the invariant holds:
what it looks for is a key at or above the index. The spec marks the rule as derived. -/
def Obligations.LookupNeverFailsOnLegalReads : Prop :=
  ∀ (P : Params) (s : State), BlockInv P s → s.ph = .scan →
    s.idx ≠ 20 ∧ ∃ i : Fin 20, lookup s.cur = some i ∧ s.idx.val ≤ i.val

/-- 43_timer_write_sequencer.md section 4: whenever the block's last write to the selector is not zero, period, compare
values and selector come from one table entry and the counter was cleared; the mode is the run mode except at the
phase `WCOFF`. The spec marks the rule as derived. -/
def Obligations.ClockRunsOnlyWithOneWholeEntry : Prop :=
  ∀ (P : Params) (s : State) (v : Data), BlockInv P s → lastWrite .clksel s.tlog = some v → v ≠ 0 →
    ∃ i, s.treg.clksel = v ∧ v = zextSelector (P.tune i).ps ∧ s.treg.period = (P.tune i).div ∧
      s.treg.cmpa = dutyA (P.tune i).div ∧ s.treg.cmpb = dutyB (P.tune i).div ∧
      s.treg.count = 0 ∧ (s.ph ≠ .wcoff → s.treg.mode = P.modeRun)

/-- 43_timer_write_sequencer.md section 4, in the terms of the log: every write of the period, a compare value, the
counter or the run mode comes after a cleared selector and before the next selector that is not zero, and every
neutral mode is the last write or is followed at once by a cleared selector. The spec marks the rule as derived. -/
def Obligations.LogOrderNeverRunsAStalePair : Prop :=
  ∀ (P : Params) (s : State) (pre post : List (TReg × Data)) (w : TReg × Data),
    P.WellFormed → BlockInv P s → s.tlog = pre ++ w :: post →
    (w.1 = .period ∨ w.1 = .cmpa ∨ w.1 = .cmpb ∨ w.1 = .count ∨ w = (.mode, P.modeRun) →
      lastWrite .clksel pre = some 0 ∧ ∀ v, firstWrite .clksel post = some v → v ≠ 0) ∧
    (w = (.mode, 0) → post = [] ∨ post.head? = some (.clksel, 0))

/-- 70_reset_and_hazards.md section 3: at a quiescent point the timer shadows are the image of the entry of the current
key. The spec marks the rule as derived. -/
def Obligations.QuiescentTimerMatchesTheKey : Prop :=
  ∀ (P : Params) (s : State), BlockInv P s → Quiescent s →
    ∃ i, lookup (s.base ||| s.mult) = some i ∧ s.treg = entryImage P i

/-! ### The compare values and the selector -/

/-- R163: `DUTY_A(d)` is the nearest integer to two hundredths of d, ties upward, and is at most 85 899 346; the ties are
the divisors that leave 25 modulo 50. -/
def Obligations.DutyAIsTheNearestInteger : Prop :=
  ∀ d : Data,
    (dutyA d).toNat = (d.toNat + 25) / 50 ∧ (dutyA d).toNat ≤ 85899346 ∧
    2 * d.toNat < 100 * (dutyA d).toNat + 50 ∧ 100 * (dutyA d).toNat ≤ 2 * d.toNat + 50 ∧
    (100 * (dutyA d).toNat = 2 * d.toNat + 50 ↔ d.toNat % 50 = 25)

/-- R164: `DUTY_B(d)` is the nearest integer to 51 hundredths of d, ties upward, and is at most 2 190 433 320: the
intermediate product is not truncated. The ties are the divisors that leave 50 modulo 100. -/
def Obligations.DutyBIsTheNearestInteger : Prop :=
  ∀ d : Data,
    (dutyB d).toNat = (51 * d.toNat + 50) / 100 ∧ (dutyB d).toNat ≤ 2190433320 ∧
    51 * d.toNat < 100 * (dutyB d).toNat + 50 ∧ 100 * (dutyB d).toNat ≤ 51 * d.toNat + 50 ∧
    (100 * (dutyB d).toNat = 51 * d.toNat + 50 ↔ d.toNat % 100 = 50)

/-- 43_timer_write_sequencer.md section 2: the bounds under which a compare value is strictly less than the divisor; under W1
they are met by every entry. The spec marks the rule as derived. -/
def Obligations.CompareValuesStayBelowTheDivisor : Prop :=
  (∀ d : Data, ((dutyA d).toNat < d.toNat ↔ 1 ≤ d.toNat) ∧ ((dutyB d).toNat < d.toNat ↔ 2 ≤ d.toNat) ∧
    (2 ≤ d.toNat → (dutyA d).toNat ≤ (dutyB d).toNat)) ∧
  ∀ (P : Params) (i : Fin 20), P.W1 →
    (dutyA (P.tune i).div).toNat < (P.tune i).div.toNat ∧
    (dutyB (P.tune i).div).toNat < (P.tune i).div.toNat

/-- 30_encoding.md section 6: under W2 and W3 the selector written last is one of 1 to 7. -/
def Obligations.SelectorWrittenIsOneToSeven : Prop :=
  ∀ (P : Params) (i : Fin 20), P.W2 → P.W3 →
    1 ≤ (zextSelector (P.tune i).ps).toNat ∧ (zextSelector (P.tune i).ps).toNat ≤ 7
end

