-- ==== Sys2Proof/Laws/State.lean ====
section
/-!
SUPPORT. What each register update leaves in each field of `State`: one lemma per field per update, true by
definition, so that no later proof unfolds a record update; and the read-after-write laws of the timer shadows.
-/

namespace Sys2Proof.Machine

@[simp] theorem State.setBase_base (s : State) (v : Byte) : (s.setBase v).base = v := rfl
@[simp] theorem State.setBase_mult (s : State) (v : Byte) : (s.setBase v).mult = s.mult := rfl
@[simp] theorem State.setBase_tog (s : State) (v : Byte) : (s.setBase v).tog = s.tog := rfl
@[simp] theorem State.setBase_ph (s : State) (v : Byte) : (s.setBase v).ph = s.ph := rfl
@[simp] theorem State.setBase_smp (s : State) (v : Byte) : (s.setBase v).smp = s.smp := rfl
@[simp] theorem State.setBase_cur (s : State) (v : Byte) : (s.setBase v).cur = s.cur := rfl
@[simp] theorem State.setBase_prev (s : State) (v : Byte) : (s.setBase v).prev = s.prev := rfl
@[simp] theorem State.setBase_idx (s : State) (v : Byte) : (s.setBase v).idx = s.idx := rfl
@[simp] theorem State.setBase_ed (s : State) (v : Byte) : (s.setBase v).ed = s.ed := rfl
@[simp] theorem State.setBase_eps (s : State) (v : Byte) : (s.setBase v).eps = s.eps := rfl
@[simp] theorem State.setBase_statusOut (s : State) (v : Byte) : (s.setBase v).statusOut = s.statusOut := rfl
@[simp] theorem State.setBase_treg (s : State) (v : Byte) : (s.setBase v).treg = s.treg := rfl
@[simp] theorem State.setBase_tlog (s : State) (v : Byte) : (s.setBase v).tlog = s.tlog := rfl
@[simp] theorem State.setBase_nedge (s : State) (v : Byte) : (s.setBase v).nedge = s.nedge := rfl
@[simp] theorem State.setBase_nadv (s : State) (v : Byte) : (s.setBase v).nadv = s.nadv := rfl
@[simp] theorem State.setBase_sched (s : State) (v : Byte) : (s.setBase v).sched = s.sched := rfl
@[simp] theorem State.setBase_slot (s : State) (v : Byte) : (s.setBase v).slot = s.slot := rfl

@[simp] theorem State.setMult_base (s : State) (v : Byte) : (s.setMult v).base = s.base := rfl
@[simp] theorem State.setMult_mult (s : State) (v : Byte) : (s.setMult v).mult = v := rfl
@[simp] theorem State.setMult_tog (s : State) (v : Byte) : (s.setMult v).tog = s.tog := rfl
@[simp] theorem State.setMult_ph (s : State) (v : Byte) : (s.setMult v).ph = s.ph := rfl
@[simp] theorem State.setMult_smp (s : State) (v : Byte) : (s.setMult v).smp = s.smp := rfl
@[simp] theorem State.setMult_cur (s : State) (v : Byte) : (s.setMult v).cur = s.cur := rfl
@[simp] theorem State.setMult_prev (s : State) (v : Byte) : (s.setMult v).prev = s.prev := rfl
@[simp] theorem State.setMult_idx (s : State) (v : Byte) : (s.setMult v).idx = s.idx := rfl
@[simp] theorem State.setMult_ed (s : State) (v : Byte) : (s.setMult v).ed = s.ed := rfl
@[simp] theorem State.setMult_eps (s : State) (v : Byte) : (s.setMult v).eps = s.eps := rfl
@[simp] theorem State.setMult_statusOut (s : State) (v : Byte) : (s.setMult v).statusOut = s.statusOut := rfl
@[simp] theorem State.setMult_treg (s : State) (v : Byte) : (s.setMult v).treg = s.treg := rfl
@[simp] theorem State.setMult_tlog (s : State) (v : Byte) : (s.setMult v).tlog = s.tlog := rfl
@[simp] theorem State.setMult_nedge (s : State) (v : Byte) : (s.setMult v).nedge = s.nedge := rfl
@[simp] theorem State.setMult_nadv (s : State) (v : Byte) : (s.setMult v).nadv = s.nadv := rfl
@[simp] theorem State.setMult_sched (s : State) (v : Byte) : (s.setMult v).sched = s.sched := rfl
@[simp] theorem State.setMult_slot (s : State) (v : Byte) : (s.setMult v).slot = s.slot := rfl

@[simp] theorem State.setTog_base (s : State) (b : Bool) : (s.setTog b).base = s.base := rfl
@[simp] theorem State.setTog_mult (s : State) (b : Bool) : (s.setTog b).mult = s.mult := rfl
@[simp] theorem State.setTog_tog (s : State) (b : Bool) : (s.setTog b).tog = b := rfl
@[simp] theorem State.setTog_ph (s : State) (b : Bool) : (s.setTog b).ph = s.ph := rfl
@[simp] theorem State.setTog_smp (s : State) (b : Bool) : (s.setTog b).smp = s.smp := rfl
@[simp] theorem State.setTog_cur (s : State) (b : Bool) : (s.setTog b).cur = s.cur := rfl
@[simp] theorem State.setTog_prev (s : State) (b : Bool) : (s.setTog b).prev = s.prev := rfl
@[simp] theorem State.setTog_idx (s : State) (b : Bool) : (s.setTog b).idx = s.idx := rfl
@[simp] theorem State.setTog_ed (s : State) (b : Bool) : (s.setTog b).ed = s.ed := rfl
@[simp] theorem State.setTog_eps (s : State) (b : Bool) : (s.setTog b).eps = s.eps := rfl
@[simp] theorem State.setTog_statusOut (s : State) (b : Bool) : (s.setTog b).statusOut = s.statusOut := rfl
@[simp] theorem State.setTog_treg (s : State) (b : Bool) : (s.setTog b).treg = s.treg := rfl
@[simp] theorem State.setTog_tlog (s : State) (b : Bool) : (s.setTog b).tlog = s.tlog := rfl
@[simp] theorem State.setTog_nedge (s : State) (b : Bool) : (s.setTog b).nedge = s.nedge := rfl
@[simp] theorem State.setTog_nadv (s : State) (b : Bool) : (s.setTog b).nadv = s.nadv := rfl
@[simp] theorem State.setTog_sched (s : State) (b : Bool) : (s.setTog b).sched = s.sched := rfl
@[simp] theorem State.setTog_slot (s : State) (b : Bool) : (s.setTog b).slot = s.slot := rfl

@[simp] theorem State.setPh_base (s : State) (p : Phase) : (s.setPh p).base = s.base := rfl
@[simp] theorem State.setPh_mult (s : State) (p : Phase) : (s.setPh p).mult = s.mult := rfl
@[simp] theorem State.setPh_tog (s : State) (p : Phase) : (s.setPh p).tog = s.tog := rfl
@[simp] theorem State.setPh_ph (s : State) (p : Phase) : (s.setPh p).ph = p := rfl
@[simp] theorem State.setPh_smp (s : State) (p : Phase) : (s.setPh p).smp = s.smp := rfl
@[simp] theorem State.setPh_cur (s : State) (p : Phase) : (s.setPh p).cur = s.cur := rfl
@[simp] theorem State.setPh_prev (s : State) (p : Phase) : (s.setPh p).prev = s.prev := rfl
@[simp] theorem State.setPh_idx (s : State) (p : Phase) : (s.setPh p).idx = s.idx := rfl
@[simp] theorem State.setPh_ed (s : State) (p : Phase) : (s.setPh p).ed = s.ed := rfl
@[simp] theorem State.setPh_eps (s : State) (p : Phase) : (s.setPh p).eps = s.eps := rfl
@[simp] theorem State.setPh_statusOut (s : State) (p : Phase) : (s.setPh p).statusOut = s.statusOut := rfl
@[simp] theorem State.setPh_treg (s : State) (p : Phase) : (s.setPh p).treg = s.treg := rfl
@[simp] theorem State.setPh_tlog (s : State) (p : Phase) : (s.setPh p).tlog = s.tlog := rfl
@[simp] theorem State.setPh_nedge (s : State) (p : Phase) : (s.setPh p).nedge = s.nedge := rfl
@[simp] theorem State.setPh_nadv (s : State) (p : Phase) : (s.setPh p).nadv = s.nadv := rfl
@[simp] theorem State.setPh_sched (s : State) (p : Phase) : (s.setPh p).sched = s.sched := rfl
@[simp] theorem State.setPh_slot (s : State) (p : Phase) : (s.setPh p).slot = s.slot := rfl

@[simp] theorem State.setSmp_base (s : State) (v : Byte) : (s.setSmp v).base = s.base := rfl
@[simp] theorem State.setSmp_mult (s : State) (v : Byte) : (s.setSmp v).mult = s.mult := rfl
@[simp] theorem State.setSmp_tog (s : State) (v : Byte) : (s.setSmp v).tog = s.tog := rfl
@[simp] theorem State.setSmp_ph (s : State) (v : Byte) : (s.setSmp v).ph = s.ph := rfl
@[simp] theorem State.setSmp_smp (s : State) (v : Byte) : (s.setSmp v).smp = v := rfl
@[simp] theorem State.setSmp_cur (s : State) (v : Byte) : (s.setSmp v).cur = s.cur := rfl
@[simp] theorem State.setSmp_prev (s : State) (v : Byte) : (s.setSmp v).prev = s.prev := rfl
@[simp] theorem State.setSmp_idx (s : State) (v : Byte) : (s.setSmp v).idx = s.idx := rfl
@[simp] theorem State.setSmp_ed (s : State) (v : Byte) : (s.setSmp v).ed = s.ed := rfl
@[simp] theorem State.setSmp_eps (s : State) (v : Byte) : (s.setSmp v).eps = s.eps := rfl
@[simp] theorem State.setSmp_statusOut (s : State) (v : Byte) : (s.setSmp v).statusOut = s.statusOut := rfl
@[simp] theorem State.setSmp_treg (s : State) (v : Byte) : (s.setSmp v).treg = s.treg := rfl
@[simp] theorem State.setSmp_tlog (s : State) (v : Byte) : (s.setSmp v).tlog = s.tlog := rfl
@[simp] theorem State.setSmp_nedge (s : State) (v : Byte) : (s.setSmp v).nedge = s.nedge := rfl
@[simp] theorem State.setSmp_nadv (s : State) (v : Byte) : (s.setSmp v).nadv = s.nadv := rfl
@[simp] theorem State.setSmp_sched (s : State) (v : Byte) : (s.setSmp v).sched = s.sched := rfl
@[simp] theorem State.setSmp_slot (s : State) (v : Byte) : (s.setSmp v).slot = s.slot := rfl

@[simp] theorem State.setCur_base (s : State) (v : Byte) : (s.setCur v).base = s.base := rfl
@[simp] theorem State.setCur_mult (s : State) (v : Byte) : (s.setCur v).mult = s.mult := rfl
@[simp] theorem State.setCur_tog (s : State) (v : Byte) : (s.setCur v).tog = s.tog := rfl
@[simp] theorem State.setCur_ph (s : State) (v : Byte) : (s.setCur v).ph = s.ph := rfl
@[simp] theorem State.setCur_smp (s : State) (v : Byte) : (s.setCur v).smp = s.smp := rfl
@[simp] theorem State.setCur_cur (s : State) (v : Byte) : (s.setCur v).cur = v := rfl
@[simp] theorem State.setCur_prev (s : State) (v : Byte) : (s.setCur v).prev = s.prev := rfl
@[simp] theorem State.setCur_idx (s : State) (v : Byte) : (s.setCur v).idx = s.idx := rfl
@[simp] theorem State.setCur_ed (s : State) (v : Byte) : (s.setCur v).ed = s.ed := rfl
@[simp] theorem State.setCur_eps (s : State) (v : Byte) : (s.setCur v).eps = s.eps := rfl
@[simp] theorem State.setCur_statusOut (s : State) (v : Byte) : (s.setCur v).statusOut = s.statusOut := rfl
@[simp] theorem State.setCur_treg (s : State) (v : Byte) : (s.setCur v).treg = s.treg := rfl
@[simp] theorem State.setCur_tlog (s : State) (v : Byte) : (s.setCur v).tlog = s.tlog := rfl
@[simp] theorem State.setCur_nedge (s : State) (v : Byte) : (s.setCur v).nedge = s.nedge := rfl
@[simp] theorem State.setCur_nadv (s : State) (v : Byte) : (s.setCur v).nadv = s.nadv := rfl
@[simp] theorem State.setCur_sched (s : State) (v : Byte) : (s.setCur v).sched = s.sched := rfl
@[simp] theorem State.setCur_slot (s : State) (v : Byte) : (s.setCur v).slot = s.slot := rfl

@[simp] theorem State.setPrev_base (s : State) (v : Byte) : (s.setPrev v).base = s.base := rfl
@[simp] theorem State.setPrev_mult (s : State) (v : Byte) : (s.setPrev v).mult = s.mult := rfl
@[simp] theorem State.setPrev_tog (s : State) (v : Byte) : (s.setPrev v).tog = s.tog := rfl
@[simp] theorem State.setPrev_ph (s : State) (v : Byte) : (s.setPrev v).ph = s.ph := rfl
@[simp] theorem State.setPrev_smp (s : State) (v : Byte) : (s.setPrev v).smp = s.smp := rfl
@[simp] theorem State.setPrev_cur (s : State) (v : Byte) : (s.setPrev v).cur = s.cur := rfl
@[simp] theorem State.setPrev_prev (s : State) (v : Byte) : (s.setPrev v).prev = v := rfl
@[simp] theorem State.setPrev_idx (s : State) (v : Byte) : (s.setPrev v).idx = s.idx := rfl
@[simp] theorem State.setPrev_ed (s : State) (v : Byte) : (s.setPrev v).ed = s.ed := rfl
@[simp] theorem State.setPrev_eps (s : State) (v : Byte) : (s.setPrev v).eps = s.eps := rfl
@[simp] theorem State.setPrev_statusOut (s : State) (v : Byte) : (s.setPrev v).statusOut = s.statusOut := rfl
@[simp] theorem State.setPrev_treg (s : State) (v : Byte) : (s.setPrev v).treg = s.treg := rfl
@[simp] theorem State.setPrev_tlog (s : State) (v : Byte) : (s.setPrev v).tlog = s.tlog := rfl
@[simp] theorem State.setPrev_nedge (s : State) (v : Byte) : (s.setPrev v).nedge = s.nedge := rfl
@[simp] theorem State.setPrev_nadv (s : State) (v : Byte) : (s.setPrev v).nadv = s.nadv := rfl
@[simp] theorem State.setPrev_sched (s : State) (v : Byte) : (s.setPrev v).sched = s.sched := rfl
@[simp] theorem State.setPrev_slot (s : State) (v : Byte) : (s.setPrev v).slot = s.slot := rfl

@[simp] theorem State.setIdx_base (s : State) (k : Fin 21) : (s.setIdx k).base = s.base := rfl
@[simp] theorem State.setIdx_mult (s : State) (k : Fin 21) : (s.setIdx k).mult = s.mult := rfl
@[simp] theorem State.setIdx_tog (s : State) (k : Fin 21) : (s.setIdx k).tog = s.tog := rfl
@[simp] theorem State.setIdx_ph (s : State) (k : Fin 21) : (s.setIdx k).ph = s.ph := rfl
@[simp] theorem State.setIdx_smp (s : State) (k : Fin 21) : (s.setIdx k).smp = s.smp := rfl
@[simp] theorem State.setIdx_cur (s : State) (k : Fin 21) : (s.setIdx k).cur = s.cur := rfl
@[simp] theorem State.setIdx_prev (s : State) (k : Fin 21) : (s.setIdx k).prev = s.prev := rfl
@[simp] theorem State.setIdx_idx (s : State) (k : Fin 21) : (s.setIdx k).idx = k := rfl
@[simp] theorem State.setIdx_ed (s : State) (k : Fin 21) : (s.setIdx k).ed = s.ed := rfl
@[simp] theorem State.setIdx_eps (s : State) (k : Fin 21) : (s.setIdx k).eps = s.eps := rfl
@[simp] theorem State.setIdx_statusOut (s : State) (k : Fin 21) : (s.setIdx k).statusOut = s.statusOut := rfl
@[simp] theorem State.setIdx_treg (s : State) (k : Fin 21) : (s.setIdx k).treg = s.treg := rfl
@[simp] theorem State.setIdx_tlog (s : State) (k : Fin 21) : (s.setIdx k).tlog = s.tlog := rfl
@[simp] theorem State.setIdx_nedge (s : State) (k : Fin 21) : (s.setIdx k).nedge = s.nedge := rfl
@[simp] theorem State.setIdx_nadv (s : State) (k : Fin 21) : (s.setIdx k).nadv = s.nadv := rfl
@[simp] theorem State.setIdx_sched (s : State) (k : Fin 21) : (s.setIdx k).sched = s.sched := rfl
@[simp] theorem State.setIdx_slot (s : State) (k : Fin 21) : (s.setIdx k).slot = s.slot := rfl

@[simp] theorem State.latchEntry_base (s : State) (w : BitVec 40) : (s.latchEntry w).base = s.base := rfl
@[simp] theorem State.latchEntry_mult (s : State) (w : BitVec 40) : (s.latchEntry w).mult = s.mult := rfl
@[simp] theorem State.latchEntry_tog (s : State) (w : BitVec 40) : (s.latchEntry w).tog = s.tog := rfl
@[simp] theorem State.latchEntry_ph (s : State) (w : BitVec 40) : (s.latchEntry w).ph = s.ph := rfl
@[simp] theorem State.latchEntry_smp (s : State) (w : BitVec 40) : (s.latchEntry w).smp = s.smp := rfl
@[simp] theorem State.latchEntry_cur (s : State) (w : BitVec 40) : (s.latchEntry w).cur = s.cur := rfl
@[simp] theorem State.latchEntry_prev (s : State) (w : BitVec 40) : (s.latchEntry w).prev = s.prev := rfl
@[simp] theorem State.latchEntry_idx (s : State) (w : BitVec 40) : (s.latchEntry w).idx = s.idx := rfl
@[simp] theorem State.latchEntry_ed (s : State) (w : BitVec 40) : (s.latchEntry w).ed = romDiv w := rfl
@[simp] theorem State.latchEntry_eps (s : State) (w : BitVec 40) : (s.latchEntry w).eps = romPs w := rfl
@[simp] theorem State.latchEntry_statusOut (s : State) (w : BitVec 40) : (s.latchEntry w).statusOut = s.statusOut := rfl
@[simp] theorem State.latchEntry_treg (s : State) (w : BitVec 40) : (s.latchEntry w).treg = s.treg := rfl
@[simp] theorem State.latchEntry_tlog (s : State) (w : BitVec 40) : (s.latchEntry w).tlog = s.tlog := rfl
@[simp] theorem State.latchEntry_nedge (s : State) (w : BitVec 40) : (s.latchEntry w).nedge = s.nedge := rfl
@[simp] theorem State.latchEntry_nadv (s : State) (w : BitVec 40) : (s.latchEntry w).nadv = s.nadv := rfl
@[simp] theorem State.latchEntry_sched (s : State) (w : BitVec 40) : (s.latchEntry w).sched = s.sched := rfl
@[simp] theorem State.latchEntry_slot (s : State) (w : BitVec 40) : (s.latchEntry w).slot = s.slot := rfl

@[simp] theorem State.setStatus_base (s : State) (v : Byte) : (s.setStatus v).base = s.base := rfl
@[simp] theorem State.setStatus_mult (s : State) (v : Byte) : (s.setStatus v).mult = s.mult := rfl
@[simp] theorem State.setStatus_tog (s : State) (v : Byte) : (s.setStatus v).tog = s.tog := rfl
@[simp] theorem State.setStatus_ph (s : State) (v : Byte) : (s.setStatus v).ph = s.ph := rfl
@[simp] theorem State.setStatus_smp (s : State) (v : Byte) : (s.setStatus v).smp = s.smp := rfl
@[simp] theorem State.setStatus_cur (s : State) (v : Byte) : (s.setStatus v).cur = s.cur := rfl
@[simp] theorem State.setStatus_prev (s : State) (v : Byte) : (s.setStatus v).prev = s.prev := rfl
@[simp] theorem State.setStatus_idx (s : State) (v : Byte) : (s.setStatus v).idx = s.idx := rfl
@[simp] theorem State.setStatus_ed (s : State) (v : Byte) : (s.setStatus v).ed = s.ed := rfl
@[simp] theorem State.setStatus_eps (s : State) (v : Byte) : (s.setStatus v).eps = s.eps := rfl
@[simp] theorem State.setStatus_statusOut (s : State) (v : Byte) : (s.setStatus v).statusOut = v := rfl
@[simp] theorem State.setStatus_treg (s : State) (v : Byte) : (s.setStatus v).treg = s.treg := rfl
@[simp] theorem State.setStatus_tlog (s : State) (v : Byte) : (s.setStatus v).tlog = s.tlog := rfl
@[simp] theorem State.setStatus_nedge (s : State) (v : Byte) : (s.setStatus v).nedge = s.nedge := rfl
@[simp] theorem State.setStatus_nadv (s : State) (v : Byte) : (s.setStatus v).nadv = s.nadv := rfl
@[simp] theorem State.setStatus_sched (s : State) (v : Byte) : (s.setStatus v).sched = s.sched := rfl
@[simp] theorem State.setStatus_slot (s : State) (v : Byte) : (s.setStatus v).slot = s.slot := rfl

@[simp] theorem State.countEdge_base (s : State) : (s.countEdge).base = s.base := rfl
@[simp] theorem State.countEdge_mult (s : State) : (s.countEdge).mult = s.mult := rfl
@[simp] theorem State.countEdge_tog (s : State) : (s.countEdge).tog = s.tog := rfl
@[simp] theorem State.countEdge_ph (s : State) : (s.countEdge).ph = s.ph := rfl
@[simp] theorem State.countEdge_smp (s : State) : (s.countEdge).smp = s.smp := rfl
@[simp] theorem State.countEdge_cur (s : State) : (s.countEdge).cur = s.cur := rfl
@[simp] theorem State.countEdge_prev (s : State) : (s.countEdge).prev = s.prev := rfl
@[simp] theorem State.countEdge_idx (s : State) : (s.countEdge).idx = s.idx := rfl
@[simp] theorem State.countEdge_ed (s : State) : (s.countEdge).ed = s.ed := rfl
@[simp] theorem State.countEdge_eps (s : State) : (s.countEdge).eps = s.eps := rfl
@[simp] theorem State.countEdge_statusOut (s : State) : (s.countEdge).statusOut = s.statusOut := rfl
@[simp] theorem State.countEdge_treg (s : State) : (s.countEdge).treg = s.treg := rfl
@[simp] theorem State.countEdge_tlog (s : State) : (s.countEdge).tlog = s.tlog := rfl
@[simp] theorem State.countEdge_nedge (s : State) : (s.countEdge).nedge = s.nedge + 1 := rfl
@[simp] theorem State.countEdge_nadv (s : State) : (s.countEdge).nadv = s.nadv := rfl
@[simp] theorem State.countEdge_sched (s : State) : (s.countEdge).sched = s.sched := rfl
@[simp] theorem State.countEdge_slot (s : State) : (s.countEdge).slot = s.slot := rfl

@[simp] theorem State.countAdv_base (s : State) : (s.countAdv).base = s.base := rfl
@[simp] theorem State.countAdv_mult (s : State) : (s.countAdv).mult = s.mult := rfl
@[simp] theorem State.countAdv_tog (s : State) : (s.countAdv).tog = s.tog := rfl
@[simp] theorem State.countAdv_ph (s : State) : (s.countAdv).ph = s.ph := rfl
@[simp] theorem State.countAdv_smp (s : State) : (s.countAdv).smp = s.smp := rfl
@[simp] theorem State.countAdv_cur (s : State) : (s.countAdv).cur = s.cur := rfl
@[simp] theorem State.countAdv_prev (s : State) : (s.countAdv).prev = s.prev := rfl
@[simp] theorem State.countAdv_idx (s : State) : (s.countAdv).idx = s.idx := rfl
@[simp] theorem State.countAdv_ed (s : State) : (s.countAdv).ed = s.ed := rfl
@[simp] theorem State.countAdv_eps (s : State) : (s.countAdv).eps = s.eps := rfl
@[simp] theorem State.countAdv_statusOut (s : State) : (s.countAdv).statusOut = s.statusOut := rfl
@[simp] theorem State.countAdv_treg (s : State) : (s.countAdv).treg = s.treg := rfl
@[simp] theorem State.countAdv_tlog (s : State) : (s.countAdv).tlog = s.tlog := rfl
@[simp] theorem State.countAdv_nedge (s : State) : (s.countAdv).nedge = s.nedge := rfl
@[simp] theorem State.countAdv_nadv (s : State) : (s.countAdv).nadv = s.nadv + 1 := rfl
@[simp] theorem State.countAdv_sched (s : State) : (s.countAdv).sched = s.sched := rfl
@[simp] theorem State.countAdv_slot (s : State) : (s.countAdv).slot = s.slot := rfl

@[simp] theorem State.tw_base (s : State) (r : TReg) (v : Data) : (s.tw r v).base = s.base := rfl
@[simp] theorem State.tw_mult (s : State) (r : TReg) (v : Data) : (s.tw r v).mult = s.mult := rfl
@[simp] theorem State.tw_tog (s : State) (r : TReg) (v : Data) : (s.tw r v).tog = s.tog := rfl
@[simp] theorem State.tw_ph (s : State) (r : TReg) (v : Data) : (s.tw r v).ph = s.ph := rfl
@[simp] theorem State.tw_smp (s : State) (r : TReg) (v : Data) : (s.tw r v).smp = s.smp := rfl
@[simp] theorem State.tw_cur (s : State) (r : TReg) (v : Data) : (s.tw r v).cur = s.cur := rfl
@[simp] theorem State.tw_prev (s : State) (r : TReg) (v : Data) : (s.tw r v).prev = s.prev := rfl
@[simp] theorem State.tw_idx (s : State) (r : TReg) (v : Data) : (s.tw r v).idx = s.idx := rfl
@[simp] theorem State.tw_ed (s : State) (r : TReg) (v : Data) : (s.tw r v).ed = s.ed := rfl
@[simp] theorem State.tw_eps (s : State) (r : TReg) (v : Data) : (s.tw r v).eps = s.eps := rfl
@[simp] theorem State.tw_statusOut (s : State) (r : TReg) (v : Data) : (s.tw r v).statusOut = s.statusOut := rfl
@[simp] theorem State.tw_treg (s : State) (r : TReg) (v : Data) : (s.tw r v).treg = s.treg.set r v := rfl
@[simp] theorem State.tw_tlog (s : State) (r : TReg) (v : Data) : (s.tw r v).tlog = s.tlog ++ [(r, v)] := rfl
@[simp] theorem State.tw_nedge (s : State) (r : TReg) (v : Data) : (s.tw r v).nedge = s.nedge := rfl
@[simp] theorem State.tw_nadv (s : State) (r : TReg) (v : Data) : (s.tw r v).nadv = s.nadv := rfl
@[simp] theorem State.tw_sched (s : State) (r : TReg) (v : Data) : (s.tw r v).sched = s.sched := rfl
@[simp] theorem State.tw_slot (s : State) (r : TReg) (v : Data) : (s.tw r v).slot = s.slot := rfl

@[simp] theorem State.popSlot_base (s : State) : (s.popSlot).base = s.base := rfl
@[simp] theorem State.popSlot_mult (s : State) : (s.popSlot).mult = s.mult := rfl
@[simp] theorem State.popSlot_tog (s : State) : (s.popSlot).tog = s.tog := rfl
@[simp] theorem State.popSlot_ph (s : State) : (s.popSlot).ph = s.ph := rfl
@[simp] theorem State.popSlot_smp (s : State) : (s.popSlot).smp = s.smp := rfl
@[simp] theorem State.popSlot_cur (s : State) : (s.popSlot).cur = s.cur := rfl
@[simp] theorem State.popSlot_prev (s : State) : (s.popSlot).prev = s.prev := rfl
@[simp] theorem State.popSlot_idx (s : State) : (s.popSlot).idx = s.idx := rfl
@[simp] theorem State.popSlot_ed (s : State) : (s.popSlot).ed = s.ed := rfl
@[simp] theorem State.popSlot_eps (s : State) : (s.popSlot).eps = s.eps := rfl
@[simp] theorem State.popSlot_statusOut (s : State) : (s.popSlot).statusOut = s.statusOut := rfl
@[simp] theorem State.popSlot_treg (s : State) : (s.popSlot).treg = s.treg := rfl
@[simp] theorem State.popSlot_tlog (s : State) : (s.popSlot).tlog = s.tlog := rfl
@[simp] theorem State.popSlot_nedge (s : State) : (s.popSlot).nedge = s.nedge := rfl
@[simp] theorem State.popSlot_nadv (s : State) : (s.popSlot).nadv = s.nadv := rfl
@[simp] theorem State.popSlot_sched (s : State) : (s.popSlot).sched = s.sched.tail := rfl
@[simp] theorem State.popSlot_slot (s : State) :
    (s.popSlot).slot = if s.sched.isEmpty then s.slot + 1 else s.slot := rfl

@[simp] theorem State.pushSlot_base (s : State) (t : Token) : (s.pushSlot t).base = s.base := rfl
@[simp] theorem State.pushSlot_mult (s : State) (t : Token) : (s.pushSlot t).mult = s.mult := rfl
@[simp] theorem State.pushSlot_tog (s : State) (t : Token) : (s.pushSlot t).tog = s.tog := rfl
@[simp] theorem State.pushSlot_ph (s : State) (t : Token) : (s.pushSlot t).ph = s.ph := rfl
@[simp] theorem State.pushSlot_smp (s : State) (t : Token) : (s.pushSlot t).smp = s.smp := rfl
@[simp] theorem State.pushSlot_cur (s : State) (t : Token) : (s.pushSlot t).cur = s.cur := rfl
@[simp] theorem State.pushSlot_prev (s : State) (t : Token) : (s.pushSlot t).prev = s.prev := rfl
@[simp] theorem State.pushSlot_idx (s : State) (t : Token) : (s.pushSlot t).idx = s.idx := rfl
@[simp] theorem State.pushSlot_ed (s : State) (t : Token) : (s.pushSlot t).ed = s.ed := rfl
@[simp] theorem State.pushSlot_eps (s : State) (t : Token) : (s.pushSlot t).eps = s.eps := rfl
@[simp] theorem State.pushSlot_statusOut (s : State) (t : Token) : (s.pushSlot t).statusOut = s.statusOut := rfl
@[simp] theorem State.pushSlot_treg (s : State) (t : Token) : (s.pushSlot t).treg = s.treg := rfl
@[simp] theorem State.pushSlot_tlog (s : State) (t : Token) : (s.pushSlot t).tlog = s.tlog := rfl
@[simp] theorem State.pushSlot_nedge (s : State) (t : Token) : (s.pushSlot t).nedge = s.nedge := rfl
@[simp] theorem State.pushSlot_nadv (s : State) (t : Token) : (s.pushSlot t).nadv = s.nadv := rfl
@[simp] theorem State.pushSlot_sched (s : State) (t : Token) : (s.pushSlot t).sched = t :: s.sched := rfl
@[simp] theorem State.pushSlot_slot (s : State) (t : Token) : (s.pushSlot t).slot = s.slot := rfl

/-- Reading a shadow back after a write: the written register holds the value, every other one what it held. -/
theorem TimerRegs.get_set_cases (t : TimerRegs) (r q : TReg) (v : Data) :
    (q = r ∧ (t.set r v).get q = v) ∨ (q ≠ r ∧ (t.set r v).get q = t.get q) := by
  cases r <;> cases q <;> simp [TimerRegs.get, TimerRegs.set]

/-- Two sets of shadows are equal when every register reads the same. -/
theorem TimerRegs.ext_get {t u : TimerRegs} (h : ∀ r, t.get r = u.get r) : t = u := by
  have h0 := h .mode
  have h1 := h .clksel
  have h2 := h .period
  have h3 := h .cmpa
  have h4 := h .cmpb
  have h5 := h .count
  cases t
  cases u
  simp_all [TimerRegs.get]

end Sys2Proof.Machine
end

