-- ==== Sys2Proof/Laws/Ops.lean ====
section
/-!
SUPPORT. For each shared operation, one lemma that says everything it can do, for proofs to cite instead of unfolding
it: the two advances, the edge handler, the table index, the ROM fields, the table probe, the write phases.
-/

namespace Sys2Proof.Machine

/-- What `ADVM` can write (R123). -/
theorem nextMult_cases (m : Byte) :
    (4 ≤ m.toNat ∧ nextMult m = 0x00) ∨ (m = 0x00 ∧ nextMult m = 0x01) ∨
      (m.toNat < 4 ∧ m ≠ 0x00 ∧ nextMult m = shl8 m) := by
  unfold nextMult
  split
  · exact .inl ⟨by assumption, rfl⟩
  · split
    · exact .inr (.inl ⟨by assumption, rfl⟩)
    · exact .inr (.inr ⟨by omega, by assumption, rfl⟩)

/-- What `ADVB` can do (R122). -/
theorem advanceBase_cases (s : State) :
    (s.base = 0x80 ∧
      advanceBase s = { s with base := 0x08, mult := nextMult s.mult, nadv := s.nadv + 1 }) ∨
    (s.base ≠ 0x80 ∧ advanceBase s = { s with base := shl8 s.base, nadv := s.nadv + 1 }) := by
  unfold advanceBase
  split
  · exact .inl ⟨by assumption, rfl⟩
  · exact .inr ⟨by assumption, rfl⟩

/-- What an event can do (R110): the toggle was set and is cleared, or it was clear, is set, and `ADVB` runs. -/
theorem edgeEffect_cases (s : State) :
    (s.tog = true ∧ edgeEffect s = { s with tog := false, nedge := s.nedge + 1 }) ∨
    (s.tog = false ∧
      edgeEffect s = advanceBase { s with tog := true, nedge := s.nedge + 1 }) := by
  unfold edgeEffect leaveHandler handleEvent enterHandler eventAdvances
  cases h : s.tog
  · exact .inr ⟨rfl, rfl⟩
  · exact .inl ⟨rfl, rfl⟩

/-- `base` after an event, from the toggle and `base` before it (R110, R122). -/
def baseAfterEvent (tog : Bool) (base : Byte) : Byte :=
  if tog then base else if base = 0x80 then 0x08 else shl8 base

/-- `mult` after an event, from the toggle and the shared registers before it (R110, R122, R123). -/
def multAfterEvent (tog : Bool) (base mult : Byte) : Byte :=
  if tog then mult else if base = 0x80 then nextMult mult else mult

/-- An event as one register update: five fields, each a function of the shared registers and counters. -/
theorem edgeEffect_eq (s : State) :
    edgeEffect s =
      { s with
        base := baseAfterEvent s.tog s.base, mult := multAfterEvent s.tog s.base s.mult
        tog := !s.tog, nedge := s.nedge + 1, nadv := if s.tog then s.nadv else s.nadv + 1 } := by
  unfold baseAfterEvent multAfterEvent
  rcases edgeEffect_cases s with ⟨ht, e⟩ | ⟨ht, e⟩ <;> rw [e, ht]
  · rfl
  · unfold advanceBase
    by_cases hb : s.base = 0x80 <;> simp only [hb, if_true, if_false] <;> rfl

/-- The table index: none at 20 alone, below it the entry of that number (R27, R146). -/
theorem tableIndex_cases (k : Fin 21) :
    (k = 20 ∧ tableIndex k = none) ∨
      (∃ i : Fin 20, i.val = k.val ∧ tableIndex k = some i) := by
  unfold tableIndex
  split
  · exact .inr ⟨_, rfl, rfl⟩
  · refine .inl ⟨?_, rfl⟩
    ext
    have := k.isLt
    show k.val = 20
    omega

/-- The divisor of a ROM word is the divisor the word was built from (R51). -/
@[simp] theorem romDiv_rom (P : Params) (i : Fin 20) : romDiv (rom P i) = (P.tune i).div := by
  unfold romDiv rom
  ext j hj
  simp only [BitVec.getElem_extractLsb', BitVec.getLsbD_append]
  have hge : ¬ 8 + j < 8 := by omega
  simp [hge, BitVec.getElem_eq_testBit_toNat, BitVec.getLsbD]

/-- The selector of a ROM word is the selector the word was built from (R51). -/
@[simp] theorem romPs_rom (P : Params) (i : Fin 20) : romPs (rom P i) = (P.tune i).ps := by
  unfold romPs rom
  ext j hj
  simp only [BitVec.getElem_extractLsb', BitVec.getLsbD_append]
  simp only [BitVec.getElem_eq_testBit_toNat, BitVec.getLsbD, Nat.zero_add, hj, if_true]

/-- What a probe can do (R146). -/
theorem scanEffect_cases (P : Params) (s : State) :
    (s.idx = 20 ∧ scanEffect P s = { s with ph := .rdb }) ∨
    (∃ i : Fin 20, i.val = s.idx.val ∧ key i = s.cur ∧
      scanEffect P s =
        { s with ed := (P.tune i).div, eps := (P.tune i).ps, ph := .wmoff }) ∨
    (∃ i : Fin 20, i.val = s.idx.val ∧ key i ≠ s.cur ∧
      scanEffect P s = { s with idx := i.succ, ph := .scan }) := by
  unfold scanEffect
  rcases tableIndex_cases s.idx with ⟨h, e⟩ | ⟨i, hi, e⟩
  · exact .inl ⟨h, by rw [e]; rfl⟩
  · rw [e]
    by_cases hk : key i = s.cur
    · refine .inr (.inl ⟨i, hi, hk, ?_⟩)
      simp [keyMatches, hk, State.latchEntry, State.setPh]
    · refine .inr (.inr ⟨i, hi, hk, ?_⟩)
      simp [keyMatches, hk, State.setIdx, State.setPh]

/-- What a comparison can do (R145). -/
theorem cmpEffect_cases (s : State) :
    (s.cur = s.prev ∧ cmpEffect s = { s with ph := .rdb }) ∨
    (s.cur ≠ s.prev ∧ cmpEffect s = { s with prev := s.cur, idx := 0, ph := .scan }) := by
  unfold cmpEffect unchanged
  by_cases h : s.cur = s.prev
  · exact .inl ⟨h, by simp [h, State.setPh]⟩
  · exact .inr ⟨h, by simp [h, State.setPh, State.setPrev, State.setIdx]⟩

/-- What a write phase does (R160): one timer write and the change of phase, nothing else. -/
theorem writePhase_eq (r : TReg) (v : Data) (next : Phase) (s : State) :
    writePhase r v next s =
      { s with treg := s.treg.set r v, tlog := s.tlog ++ [(r, v)], ph := next } := rfl

end Sys2Proof.Machine
end

