-- ==== Sys2Proof/Laws/PerInstr.lean ====
section
/-!
SUPPORT. Statements about every operation as syntax, one lemma per constructor: the row of spec/opcode_table.json, given
by its width and its bits, is what the encoder gives and what the table decoder reads back.
-/

namespace Sys2Proof.Laws.TableRow

/-- The row of an operation: the width and the match value of spec/opcode_table.json. -/
def row : Instr → Nat × Nat
  | .edge => (1, 0x1)
  | .rdb => (4, 0x0)
  | .rdm => (4, 0x1)
  | .mir => (4, 0x2)
  | .cmp => (4, 0x3)
  | .scan => (4, 0x4)
  | .wmoff => (4, 0x5)
  | .wcoff => (4, 0x6)
  | .wper => (4, 0x7)
  | .wca => (4, 0x8)
  | .wcb => (4, 0x9)
  | .wcnt => (4, 0xa)
  | .wmon => (4, 0xb)
  | .wcsel => (4, 0xc)

/-- The operation's word has the width and the bits of its table row, and the table decoder reads that row as
the operation. -/
def Statement (i : Instr) : Prop :=
  wordWidth (encode i) = (row i).1 ∧ wordBits (encode i) = (row i).2 ∧
    decodeTableWord (row i).1 (row i).2 = some i

theorem edge : Statement .edge := by unfold Statement; decide

theorem rdb : Statement .rdb := by unfold Statement; decide

theorem rdm : Statement .rdm := by unfold Statement; decide

theorem mir : Statement .mir := by unfold Statement; decide

theorem cmp : Statement .cmp := by unfold Statement; decide

theorem scan : Statement .scan := by unfold Statement; decide

theorem wmoff : Statement .wmoff := by unfold Statement; decide

theorem wcoff : Statement .wcoff := by unfold Statement; decide

theorem wper : Statement .wper := by unfold Statement; decide

theorem wca : Statement .wca := by unfold Statement; decide

theorem wcb : Statement .wcb := by unfold Statement; decide

theorem wcnt : Statement .wcnt := by unfold Statement; decide

theorem wmon : Statement .wmon := by unfold Statement; decide

theorem wcsel : Statement .wcsel := by unfold Statement; decide

end Sys2Proof.Laws.TableRow
end

