-- ==== Sys2Proof/Laws/Step.lean ====
section
/-!
SUPPORT. The machine is the parametric machine at the setting `params`: `exec` answers the effect, `step` answers
`stepWith`. So a statement about `effect P` or `stepWith P` for every P holds of `exec` and `step`.
-/

namespace Sys2Proof.Machine

/-- Every operation answers a next state, its effect at the machine's setting (60_exceptions.md R190). -/
theorem exec_eq_effect (i : Instr) (s : State) : exec i s = .next (effect params i s) := by
  cases i <;> rfl

/-- The phase code of a phase decodes to the micro-operation the phase selects. -/
theorem decode_phaseCode (p : Phase) : decode (.ph (phaseCode p)) = .ok (phaseInstr p) := by
  cases p <;> rfl

/-- The coming step is made by the first token the state holds. -/
theorem slotToken_of_cons (P : Params) {s : State} {t : Token} {rest : List Token} (h : s.sched = t :: rest) :
    slotToken P s = t ∧ s.popSlot = { s with sched := rest } := by
  simp [slotToken, State.popSlot, h]

/-- Past the tokens the state holds, the coming step is made by the schedule's own token (10_state.md R37). -/
theorem slotToken_of_nil (P : Params) {s : State} (h : s.sched = []) :
    slotToken P s = P.schedule s.slot ∧ s.popSlot = { s with slot := s.slot + 1 } := by
  cases s
  cases h
  exact ⟨rfl, rfl⟩

/-- The fetched word selects an operation in every state (10_state.md R28, 30_encoding.md R92). -/
theorem decode_fetch (P : Params) (s : State) :
    decode (fetch P s) = .ok (match slotToken P s with | .edge => .edge | .poll => phaseInstr s.ph) := by
  unfold fetch
  cases slotToken P s
  · rfl
  · exact decode_phaseCode s.ph

/-- A step of the machine is a step of the parametric machine at the machine's setting. -/
theorem step_eq_stepWith (s : State) : step s = .next (stepWith params s) := by
  unfold step stepWith
  rw [decode_fetch]
  cases slotToken params s <;> exact exec_eq_effect _ _

/-- A run of the machine of the host's interface, one step at a time. -/
theorem run_succ (n : Nat) (s : State) :
    Host.Core.run Sys2Proof.core (n + 1) s = Host.Core.run Sys2Proof.core n (stepWith params s) := by
  have h : Sys2Proof.core.step s = .next (stepWith params s) := step_eq_stepWith s
  simp only [Host.Core.run]
  rw [h]

/-- A run under a schedule in two parts. -/
theorem runTokens_append (P : Params) (ts us : List Token) (s : State) :
    runTokens P (ts ++ us) s = runTokens P us (runTokens P ts s) := List.foldl_append

@[simp] theorem runTokens_nil (P : Params) (s : State) : runTokens P [] s = s := rfl

@[simp] theorem runTokens_cons (P : Params) (t : Token) (ts : List Token) (s : State) :
    runTokens P (t :: ts) s = runTokens P ts (tokenStep P s t) := rfl

@[simp] theorem runStream_zero (P : Params) (ts : Nat → Token) (s : State) : runStream P ts s 0 = s := rfl

@[simp] theorem runStream_succ (P : Params) (ts : Nat → Token) (s : State) (n : Nat) :
    runStream P ts s (n + 1) = tokenStep P (runStream P ts s n) (ts n) := rfl

/-- A finite part of an infinite run is the run under that part of the schedule. -/
theorem runStream_eq_runTokens (P : Params) (ts : Nat → Token) (s : State) (n : Nat) :
    runStream P ts s n = runTokens P ((List.range n).map ts) s := by
  induction n with
  | zero => rfl
  | succ n ih =>
    rw [List.range_succ, List.map_append, runTokens_append, ← ih]
    rfl

/-- What a step of the poll agent can do, by the phase it stands at (10_state.md R28). -/
theorem pollStep_eq (P : Params) (s : State) :
    pollStep P s =
      match s.ph with
      | .rdb => rdbEffect P s
      | .rdm => rdmEffect P s
      | .mir => mirEffect s
      | .cmp => cmpEffect s
      | .scan => scanEffect P s
      | .wmoff => wmoffEffect s
      | .wcoff => wcoffEffect s
      | .wper => wperEffect s
      | .wca => wcaEffect s
      | .wcb => wcbEffect s
      | .wcnt => wcntEffect s
      | .wmon => wmonEffect P s
      | .wcsel => wcselEffect s := by
  unfold pollStep
  cases s.ph <;> rfl

/-- No agent's step reads or writes the two fields that hold the schedule (10_state.md R37: it is not state of the
block). -/
theorem tokenStep_slots (P : Params) (s : State) (t : Token) (ts : List Token) (n : Nat) :
    tokenStep P { s with sched := ts, slot := n } t = { tokenStep P s t with sched := ts, slot := n } := by
  cases t with
  | edge => simp only [tokenStep, edgeEffect_eq]
  | poll =>
    simp only [tokenStep, pollStep_eq]
    cases s.ph with
    | rdb =>
      unfold rdbEffect
      cases P.snapshotAtomic <;> rfl
    | cmp =>
      by_cases h : s.cur = s.prev <;> simp [cmpEffect, unchanged, h, State.setPrev, State.setIdx, State.setPh]
    | scan =>
      rcases h : tableIndex s.idx with _ | i <;> simp only [scanEffect, h]
      · rfl
      · by_cases k : key i = s.cur <;> simp [keyMatches, k, State.latchEntry, State.setIdx, State.setPh]
    | rdm | mir | wmoff | wcoff | wper | wca | wcb | wcnt | wmon | wcsel => rfl

end Sys2Proof.Machine
end

