-- ==== Sys2Proof/Tests/Slice0.lean ====
section
/-!
SUPPORT. Tests with expected values from the spec's own tables (each names its section), the well-formedness smoke
tests, and for every statement with hypotheses a concrete state that meets them. The tuning table `fix` is the
spec's made-up fixture (95_test_vectors.md 2.1); it is used here only.
-/

namespace Sys2Proof.Tests

open Sys2Proof.Machine Sys2Proof.Safety

/-! ### Helpers -/

/-- The fixture `FIX` of 95_test_vectors.md 2.1: the pair of entry i. -/
def fixEntry (i : Fin 20) : Entry :=
  if i.val < 14 then { div := BitVec.ofNat 32 (2000 - 100 * i.val), ps := BitVec.ofNat 8 (i.val % 7 + 1) }
  else match i.val with
    | 14 => { div := 150, ps := 1 }
    | 15 => { div := 125, ps := 2 }
    | 16 => { div := 50, ps := 3 }
    | 17 => { div := 25, ps := 4 }
    | 18 => { div := 2, ps := 5 }
    | _ => { div := 4294967295, ps := 6 }

/-- The default parameters over the fixture; the run mode is symbolic in the spec, 5 stands for it here. -/
def fix : Params := { params with tune := fixEntry, modeRun := 5 }

/-- As `fix`, with the fused read. -/
def fixAtomic : Params := { fix with snapshotAtomic := true }

/-- As `fix`, under the schedule E p E p …: fair, with infinitely many events. -/
def fixForever : Params :=
  { fix with schedule := fun n => if n % 2 = 0 then .edge else .poll }

/-- As `fix`, with the multiplier read first. -/
def fixMult : Params := { fix with readOrder := .multFirst }

/-- All shadows at zero. -/
def noRegs : TimerRegs := { mode := 0, clksel := 0, period := 0, cmpa := 0, cmpb := 0, count := 0 }

/-- A small state at a phase, with the key 0x08 in the shared registers and zero elsewhere. -/
def at_ (p : Phase) : State where
  base := 0x08
  mult := 0x00
  tog := true
  ph := p
  smp := 0
  cur := 0
  prev := 0
  idx := 0
  ed := 0
  eps := 0
  statusOut := 0
  treg := noRegs
  tlog := []
  nedge := 0
  nadv := 0
  sched := []
  slot := 0

/-- A small state with an edge agent as given. -/
def shared (t : Bool) (b m : Byte) : State := { at_ .rdb with tog := t, base := b, mult := m }

/-- The next state of an operation, none where it stops. -/
def after (i : Instr) (s : State) : Option State :=
  match exec i s with
  | .next t => some t
  | .fault _ => none
  | .refused _ => none

/-- The next state of the machine, none where it stops. -/
def stepped (s : State) : Option State :=
  match step s with
  | .next t => some t
  | .fault _ => none
  | .refused _ => none

/-- The edge agent's registers after an event. -/
def edgeOut (s : State) : Option (Bool × Byte × Byte × Nat) :=
  (after .edge s).map (fun t => (t.tog, t.base, t.mult, t.nadv))

/-- The last write of a timer phase and the phase that follows. -/
def writeOut (i : Instr) (s : State) : Option (Option (TReg × Data) × Phase) :=
  (after i s).map (fun t => (t.tlog.getLast?, t.ph))

/-! ### Well-formedness, with an ill-formed term for each check -/

/-- R90: no operand, nothing ill formed. -/
theorem test_every_operation_is_well_formed (i : Instr) : i.wellFormed = true := by cases i <;> rfl

/-- R86, R85, R92: a strobe of 0 and the three reserved codes are refused. -/
theorem test_word_well_formed :
    (Word.ev 1).wellFormed = true ∧ (Word.ev 0).wellFormed = false ∧ (Word.ph 12).wellFormed = true ∧
    (Word.ph 13).wellFormed = false ∧ (Word.ph 14).wellFormed = false ∧
    (Word.ph 15).wellFormed = false := by decide

/-- R81: two base bits, no base bit and two multiplier bits are refused. -/
theorem test_composite_legal :
    legalComposite 0x84 = true ∧ legalComposite 0x08 = true ∧ legalComposite 0x18 = false ∧
    legalComposite 0x01 = false ∧ legalComposite 0x0B = false ∧ legalComposite 0x00 = false := by decide

/-- R12: the fixture meets W1, W2, W3, and the run mode is not the neutral mode. -/
theorem test_fix_is_well_formed : fix.WellFormed := by decide

/-- R12: a divisor of 1 breaks W1. -/
theorem test_w1_refuses : ¬({ fix with tune := fun _ => { div := 1, ps := 1 } } : Params).W1 := by decide

/-- R12: a selector of 8 breaks W2. -/
theorem test_w2_refuses : ¬({ fix with tune := fun _ => { div := 2, ps := 8 } } : Params).W2 := by decide

/-- R12: a selector of 0 breaks W3. -/
theorem test_w3_refuses : ¬({ fix with tune := fun _ => { div := 2, ps := 0 } } : Params).W3 := by decide

/-- D9: a run mode of 0 is the neutral mode. -/
theorem test_run_mode_refuses : ¬({ fix with modeRun := 0 } : Params).RunsApart := by decide

/-! ### Decoding: words written out from 30_encoding.md sections 3 to 5 and 8 -/

/-- R86. -/
theorem test_decode_edge : decode (.ev 0b1) = .ok .edge ∧ decode (.ev 0b0) = .error .noEvent := ⟨rfl, rfl⟩

/-- R85: the reading and scanning phases. -/
theorem test_decode_poll_family :
    decode (.ph 0b0000) = .ok .rdb ∧ decode (.ph 0b0001) = .ok .rdm ∧ decode (.ph 0b0010) = .ok .mir ∧
    decode (.ph 0b0011) = .ok .cmp ∧ decode (.ph 0b0100) = .ok .scan := ⟨rfl, rfl, rfl, rfl, rfl⟩

/-- R85: the write phases. -/
theorem test_decode_timer_family :
    decode (.ph 0b0101) = .ok .wmoff ∧ decode (.ph 0b0110) = .ok .wcoff ∧
    decode (.ph 0b0111) = .ok .wper ∧ decode (.ph 0b1000) = .ok .wca ∧ decode (.ph 0b1001) = .ok .wcb ∧
    decode (.ph 0b1010) = .ok .wcnt ∧ decode (.ph 0b1011) = .ok .wmon ∧
    decode (.ph 0b1100) = .ok .wcsel := ⟨rfl, rfl, rfl, rfl, rfl, rfl, rfl, rfl⟩

/-- R92: the reserved codes, and the ids 6 and 7. -/
theorem test_reserved :
    decode (.ph 0b1101) = .error (.reservedPhaseCode 0b1101) ∧
    decode (.ph 0b1110) = .error (.reservedPhaseCode 0b1110) ∧
    decode (.ph 0b1111) = .error (.reservedPhaseCode 0b1111) ∧
    tregOfId 5 = some .count ∧ tregOfId 6 = none ∧ tregOfId 7 = none := ⟨rfl, rfl, rfl, rfl, rfl, rfl⟩

/-- opcode_table.json: the first and the last row, and a code beyond the table. -/
theorem test_table_words :
    decodeTableWord 1 1 = some .edge ∧ decodeTableWord 4 0 = some .rdb ∧
    decodeTableWord 4 12 = some .wcsel ∧ decodeTableWord 4 13 = none ∧
    decodeTableWord 8 12 = some .wcsel := by decide

/-- 95_test_vectors.md 3.5: three of the eight transactions. -/
theorem test_twx_words :
    encodeTwx (.mode, 0) = 0x000000000#35 ∧ encodeTwx (.period, 2000) = 0x2000007D0#35 ∧
    encodeTwx (.cmpb, 1020) = 0x4000003FC#35 ∧ decodeTwx 0x2000007D0#35 = some (.period, 2000) ∧
    decodeTwx 0x600000000#35 = none := by decide

/-- R96 with 95_test_vectors.md P8: `E E E p` is 1110. -/
theorem test_schedule_bits :
    encodeSchedule [.edge, .edge, .edge, .poll] = [true, true, true, false] := by decide

/-- A placed event and a placed phase are what the coming step runs. -/
theorem test_placed_words_run :
    decode (fetch params (State.withFetchWord (at_ .mir) 1 1)) = .ok .edge ∧
    decode (fetch params (State.withFetchWord (at_ .mir) 4 8)) = .ok .wca := ⟨rfl, rfl⟩

/-- The same from reset: the write the phase makes is in the log after one step. -/
theorem test_placed_word_runs_from_reset :
    (stepped (State.reset.withFetchWord 4 0xA)).map (fun t => (t.tlog, t.ph)) =
      some ([(.count, 0)], .wmon) := by decide

/-! ### One step each: 95_test_vectors.md 3.1 to 3.5 -/

/-- 3.1: a wrap of the base with a carry, and a wrap of both. -/
theorem test_edge_wraps :
    edgeOut (shared false 0x80 0x00) = some (true, 0x08, 0x01, 1) ∧
    edgeOut (shared false 0x80 0x04) = some (true, 0x08, 0x00, 1) ∧
    edgeOut (shared false 0x40 0x02) = some (true, 0x80, 0x02, 1) ∧
    edgeOut (shared true 0x80 0x04) = some (false, 0x80, 0x04, 0) := by decide

/-- 3.2: values no run reaches: only 0x80 wraps, and a lost bit leaves no carry. -/
theorem test_edge_on_unreachable_values :
    edgeOut (shared false 0x00 0x00) = some (true, 0x00, 0x00, 1) ∧
    edgeOut (shared false 0xC0 0x00) = some (true, 0x80, 0x00, 1) ∧
    edgeOut (shared false 0x80 0x03) = some (true, 0x08, 0x06, 1) ∧
    edgeOut (shared false 0x80 0xFF) = some (true, 0x08, 0x00, 1) := by decide

/-- R141: `RDB` latches the base and leaves `cur`. -/
theorem test_rdb : (after .rdb (shared true 0x80 0x04)).map (fun t => (t.smp, t.cur, t.ph)) =
    some (0x80, 0x00, .rdm) := by decide

/-- R141, R143: the other settings. -/
theorem test_rdb_settings :
    (effect fixMult .rdb (shared true 0x80 0x04)).smp = 0x04 ∧
    (effect fixAtomic .rdb (shared true 0x80 0x04)).cur = 0x84 ∧
    (effect fixAtomic .rdb (shared true 0x80 0x04)).ph = .mir := by decide

/-- P3: the torn read joins the old base with the new multiplier. -/
theorem test_rdm_torn :
    (after .rdm { shared true 0x08 0x01 with ph := .rdm, smp := 0x80 }).map (fun t => (t.cur, t.ph)) =
      some (0x81, .mir) := by decide

/-- P3, variant `MULT_FIRST`. -/
theorem test_rdm_multiplier_first :
    (effect fixMult .rdm { shared true 0x08 0x01 with ph := .rdm, smp := 0x00 }).cur = 0x08 := by decide

/-- R144. -/
theorem test_mir : (after .mir { at_ .mir with cur := 0x84 }).map (fun t => (t.statusOut, t.ph)) =
    some (0x84, .cmp) := by decide

/-- R145: an unchanged key ends the pass, and the index stays. -/
theorem test_cmp_unchanged :
    (after .cmp { at_ .cmp with cur := 0x10, prev := 0x10, idx := 7 }).map (fun t => (t.idx, t.ph)) =
      some (7, .rdb) := by decide

/-- R145: a changed key is taken before the scan. -/
theorem test_cmp_changed :
    (after .cmp { at_ .cmp with cur := 0x10, prev := 0x08, idx := 7 }).map (fun t => (t.prev, t.idx, t.ph)) =
      some (0x10, 0, .scan) := by decide

/-- R146: the last entry fails, and the index 20 ends the scan with nothing latched. -/
theorem test_scan_ends :
    (after .scan { at_ .scan with cur := 0x18, idx := 19 }).map (fun t => (t.idx, t.ph)) =
      some (20, .scan) ∧
    (after .scan { at_ .scan with cur := 0x18, idx := 20, ed := 9 }).map (fun t => (t.idx, t.ed, t.ph)) =
      some (20, 9, .rdb) := by decide

/-- 3.4: a match at index 5 of the fixture latches 1500 and 6 and keeps the index. -/
theorem test_scan_match :
    let t := effect fix .scan { at_ .scan with cur := 0x09, idx := 5 }
    (t.ed, t.eps, t.idx, t.ph) = (1500, 6, 5, .wmoff) := by decide

/-- 3.5, rows 1 to 3. -/
theorem test_stop_and_period :
    writeOut .wmoff (at_ .wmoff) = some (some (.mode, 0), .wcoff) ∧
    writeOut .wcoff (at_ .wcoff) = some (some (.clksel, 0), .wper) ∧
    writeOut .wper { at_ .wper with ed := 2000 } = some (some (.period, 0x7D0), .wca) := by decide

/-- 3.5, rows 4 to 6. -/
theorem test_compares_and_count :
    writeOut .wca { at_ .wca with ed := 2000 } = some (some (.cmpa, 0x28), .wcb) ∧
    writeOut .wcb { at_ .wcb with ed := 2000 } = some (some (.cmpb, 0x3FC), .wcnt) ∧
    writeOut .wcnt (at_ .wcnt) = some (some (.count, 0), .wmon) := by decide

/-- 3.5, row 7: the run mode; the machine's own run mode has no value to compare with. -/
theorem test_wmon :
    (effect fix .wmon (at_ .wmon)).treg.mode = 5 ∧
    (after .wmon (at_ .wmon)).map (·.ph) = some .wcsel := by decide

/-- 3.5, row 8, and D23: all eight selector bits are passed. -/
theorem test_wcsel :
    writeOut .wcsel { at_ .wcsel with eps := 1 } = some (some (.clksel, 1), .rdb) ∧
    writeOut .wcsel { at_ .wcsel with eps := 0xF8 } = some (some (.clksel, 0xF8), .rdb) := by decide

/-- 3.3: the ties, and the divisor whose product does not fit 32 bits. -/
theorem test_duty_values :
    (dutyA 24, dutyA 25, dutyA 125, dutyA 65535) = (0, 1, 3, 1311) ∧
    (dutyB 1, dutyB 50, dutyB 150, dutyB 65535) = (1, 26, 77, 33423) ∧
    (dutyA 4294967295, dutyB 4294967295) = (85899346, 2190433320) := by decide

/-- 2.1: the 40-bit words of three entries. -/
theorem test_rom_words :
    rom fix 0 = 0x000007D001#40 ∧ rom fix 13 = 0x000002BC07#40 ∧ rom fix 19 = 0xFFFFFFFF06#40 := by decide

/-- 3.4: the lookup. -/
theorem test_lookup :
    lookup 0x08 = some 0 ∧ lookup 0x84 = some 19 ∧ lookup 0x81 = some 9 ∧ lookup 0x00 = none ∧
    lookup 0x0B = none ∧ lookup 0x88 = none := by decide

/-- The step slot: an event leaves the phase, and the slot after it is the poll agent's. -/
theorem test_slots :
    (stepped { at_ .mir with sched := [.edge, .poll] }).map (fun t => (t.ph, t.nedge, t.sched)) =
      some (.mir, 1, [.poll]) ∧
    (stepped { at_ .mir with sched := [.poll] }).map (fun t => (t.ph, t.nedge, t.slot)) =
      some (.cmp, 0, 0) := by decide

/-! ### Witnesses: for every statement with hypotheses, a state that meets them -/

/-- A block right after its first pass over the fixture: entry 0 is programmed (P1, first pass). -/
def programmed : State :=
  { at_ .rdb with
    prev := 0x08, cur := 0x08, ed := 2000, eps := 1
    treg := entryImage fix 0, tlog := entryWrites fix 0 }

theorem legal_at (p : Phase) : LegalFields (at_ p) := ⟨⟨0, by decide, rfl⟩, ⟨0, by decide, rfl⟩⟩

/-- `RdbLatchesTheFirstField`, `RdmFormsTheUnion`. -/
theorem test_witness_separate_reads : fix.snapshotAtomic = false ∧ fixMult.snapshotAtomic = false := by decide

/-- `FusedReadTakesBothFields`. -/
theorem test_witness_fused_read : fixAtomic.snapshotAtomic = true := by decide

/-- `ScanProbesOneEntry`: the end of the table; a match at the first and the last entry; no match at each. -/
theorem test_witness_scan_clauses :
    ({ at_ .scan with idx := 20 } : State).idx = 20 ∧
    (let s : State := { at_ .scan with idx := 0, cur := 0x08 }; s.idx.val = (0 : Fin 20).val ∧ key 0 = s.cur) ∧
    (let s : State := { at_ .scan with idx := 19, cur := 0x84 }; s.idx.val = (19 : Fin 20).val ∧ key 19 = s.cur) ∧
    (let s : State := { at_ .scan with idx := 0, cur := 0x18 }; s.idx.val = (0 : Fin 20).val ∧ key 0 ≠ s.cur) ∧
    (let s : State := { at_ .scan with idx := 19, cur := 0x18 };
      s.idx.val = (19 : Fin 20).val ∧ key 19 ≠ s.cur) := by decide

/-- `OnlyTheListedOperationsWrite`: an operation for each premise. -/
theorem test_witness_frame_clauses :
    Instr.rdb ≠ .edge ∧ (Instr.rdb ≠ .rdb ∨ fixAtomic.snapshotAtomic = true) ∧
    (Instr.rdb ≠ .rdm ∧ ¬(Instr.rdb = .rdb ∧ fix.snapshotAtomic = true)) ∧
    (Instr.wcsel ≠ .cmp ∧ Instr.wcsel ≠ .scan ∧ Instr.wcsel ≠ .mir) ∧ timerTarget .scan = none := by decide

/-- `EachWritePhaseTouchesOneTimerRegister`. -/
theorem test_witness_timer_targets :
    timerTarget .wmon = some .mode ∧ timerTarget .wmon ≠ some .count ∧ timerTarget .edge = none := by decide

/-- `StepRunsTheDecodedOperation`: each of its four clauses. -/
theorem test_witness_step_clauses :
    decode (fetch params { at_ .wcsel with sched := [.poll] }) = .ok .wcsel ∧
    ({ at_ .rdb with sched := [.edge] } : State).sched = .edge :: [] ∧
    ({ at_ .rdb with sched := [.poll] } : State).sched = .poll :: [] ∧ (at_ .rdb).sched = [] :=
  ⟨rfl, rfl, rfl, rfl⟩

/-- `PhaseMovesOnlyAsListed`. -/
theorem test_witness_slots :
    slotToken params { at_ .rdb with sched := [.edge] } = .edge ∧
    slotToken params { at_ .rdb with sched := [.poll] } = .poll := by decide

/-- `FairRunsStartPassesForEver`, `InfiniteRunsAreTheScheduledRuns`: a fair schedule, and it holds an event at or after
every step too (R225: infinitely many E). -/
theorem test_witness_fair :
    Fair fixForever.schedule ∧ ∀ n, ∃ m, n ≤ m ∧ fixForever.schedule m = .edge :=
  ⟨fun n => ⟨2 * n + 1, by omega, by simp [fixForever]⟩, fun n => ⟨2 * n, by omega, by simp [fixForever]⟩⟩

/-- The same two: an infinite run with that schedule. -/
theorem test_witness_infinite_run :
    IsInfiniteRun fixForever fixForever.schedule
      (runStream fixForever fixForever.schedule (State.resetWith fixForever)) :=
  ⟨rfl, fun _ => rfl, test_witness_fair.1⟩

/-- R225 with 95_test_vectors.md 3.1: past the tokens it holds a state steps as its schedule says; from reset the steps
E p E are two events and one read. -/
theorem test_schedule_goes_on :
    let s := stepWith fixForever (stepWith fixForever (stepWith fixForever (State.resetWith fixForever)))
    (s.nedge, s.nadv, s.ph, s.smp, s.slot) = (2, 1, .rdm, 0x08, 3) := by decide

/-- `EventsCommuteWithNonReadingSteps`. -/
theorem test_witness_not_reading : (at_ .mir).ph ≠ .rdb ∧ (at_ .mir).ph ≠ .rdm := by decide

/-- `UnwrittenRegistersAreNeverRead`: two states that differ in every register not yet written. -/
theorem test_witness_agree :
    AgreeOnRead (at_ .rdb)
      { at_ .rdb with
        smp := 1, cur := 2, idx := 3, ed := 4, eps := 5, statusOut := 6
        treg := { noRegs with mode := 7, count := 8 } } :=
  ⟨rfl, rfl, rfl, rfl, rfl, rfl, rfl, rfl, rfl, rfl, nofun, nofun, nofun, nofun, nofun⟩

/-- R27 with `TableIndexRoundTrips`: the last entry, the end of the table, and a value that is never produced. -/
theorem test_index_bits :
    indexBits 19 = 0b10011 ∧ indexOfBits 0b10100 = some 20 ∧ indexOfBits 0b10101 = none := by decide

/-- `DecodeInvertsEncode`, `ReservedCodesAreRefused`: at the edges of the code range. -/
theorem test_witness_code_edges :
    decode (.ph 12) = .ok .wcsel ∧ ¬(13 ≤ (12#4).toNat) ∧ 13 ≤ (13#4).toNat ∧ ¬(6 ≤ (5#3).toNat) ∧
    6 ≤ (6#3).toNat := ⟨rfl, by decide, by decide, by decide, by decide⟩

/-- `LookupAnswersTheLeastMatch`. -/
theorem test_witness_lookup : lookup 0x84 = some 19 ∧ key 19 = 0x84 ∧ ∀ j : Fin 20, j < 19 → key j ≠ 0x84 := by
  decide

/-- `LegalUnionIsAKeyAndLossless`, `CycleLengthIsTwenty`, `FortyEventsReturnTheState`. -/
theorem test_witness_legal_fields :
    LegalFields (at_ .rdb) ∧ LegalFields (shared false 0x80 0x04) :=
  ⟨legal_at .rdb, ⟨4, by decide, by decide⟩, ⟨3, by decide, by decide⟩⟩

/-- `AdvancesFollowTheEnumeration`. -/
theorem test_witness_initial_pair : (at_ .rdb).base = 0x08 ∧ (at_ .rdb).mult = 0x00 := by decide

/-- `ScanComputesTheLookup`: a key, and a byte that is none. -/
theorem test_witness_scan_start :
    (let s : State := { at_ .scan with cur := 0x84 }; s.ph = .scan ∧ s.idx = 0 ∧ lookup s.cur = some 19) ∧
    (let s : State := { at_ .scan with cur := 0x18 }; s.ph = .scan ∧ s.idx = 0 ∧ lookup s.cur = none) := by
  decide

/-- `OnePassOfTheLoop`: no change, a changed key, a byte that is no key. -/
theorem test_witness_pass_clauses :
    ((at_ .rdb).ph = .rdb ∧ programmed.base ||| programmed.mult = programmed.prev) ∧
    (let s := shared true 0x80 0x04; s.ph = .rdb ∧ s.base ||| s.mult ≠ s.prev ∧
      lookup (s.base ||| s.mult) = some 19) ∧
    (let s := shared true 0x18 0x00; s.ph = .rdb ∧ s.base ||| s.mult ≠ s.prev ∧
      lookup (s.base ||| s.mult) = none) := by decide

/-- `PassLengthIsTheLeastReturn`: the longest pass of 95_test_vectors.md 3.4 has 32 steps, and a step inside it. -/
theorem test_witness_pass_length :
    passLength fix (shared true 0x80 0x04) = 32 ∧ passLength fix programmed = 4 ∧ 1 ≤ 3 ∧ 3 < 4 := by decide

/-- `ProgrammingRunsThroughEvents`: two events among the eight steps. -/
theorem test_witness_programming :
    (at_ .wmoff).ph = .wmoff ∧
    ([.poll, .poll, .edge, .poll, .poll, .poll, .edge, .poll, .poll, .poll] : List Token).count .poll = 8 := by
  decide

/-- `QuiescentBlockStaysSilent`, `TwentyAdvancesLookLikeNone`. -/
theorem test_witness_quiescent : LegalFields programmed ∧ Quiescent programmed :=
  ⟨legal_at .rdb, by decide, by decide⟩

/-- `TornReadIsAlwaysAKey`: the last base position, the multiplier about to step (P3), in either read order. -/
theorem test_witness_torn :
    fix.snapshotAtomic = false ∧ fixMult.snapshotAtomic = false ∧ (shared true 0x80 0x00).ph = .rdb ∧
    AtCount 4 (shared true 0x80 0x00) := ⟨rfl, rfl, rfl, by decide, by decide⟩

/-- `EverySettingKeepsTheBlockInvariant`, `QuiescentTimerMatchesTheKey`: the invariant at the programmed block, which
is quiescent. -/
theorem test_witness_invariant : BlockInv fix programmed ∧ Quiescent programmed := by
  refine ⟨⟨legal_at .rdb, nofun, ?_, nofun, ⟨[0], rfl, nofun, fun _ _ => .inr ⟨0, rfl, by decide⟩⟩, ?_⟩,
    by decide, by decide⟩
  · rintro (h | h | h) <;> cases h
  · intro r v h
    cases r <;> exact Option.some.inj h

/-- `ClockRunsOnlyWithOneWholeEntry`: the selector last written there is 1. -/
theorem test_witness_clock_runs :
    lastWrite .clksel programmed.tlog = some 1 ∧ (1 : Data) ≠ 0 ∧ programmed.ph ≠ .wcoff := by decide

/-- `LogOrderNeverRunsAStalePair`: the write of the period in that log, and the neutral mode. -/
theorem test_witness_log_split :
    fix.WellFormed ∧
    (∃ post, programmed.tlog = [(.mode, 0), (.clksel, 0)] ++ (.period, 2000) :: post) ∧
    ∃ post, programmed.tlog = [] ++ (.mode, 0) :: post :=
  ⟨test_fix_is_well_formed, ⟨_, rfl⟩, ⟨_, rfl⟩⟩

/-- `LookupNeverFailsOnLegalReads`: the first scan after reset. -/
theorem test_witness_scanning :
    let s : State := { at_ .scan with cur := 0x08, prev := 0x08 }
    BlockInv fix s ∧ s.ph = .scan := by
  refine ⟨⟨legal_at .scan, nofun, fun _ => ⟨0, by decide⟩, fun _ => ⟨rfl, fun i h => ?_⟩,
    ⟨[], rfl, nofun, fun _ h => absurd rfl h⟩, nofun⟩, rfl⟩
  exact absurd h (Nat.not_lt_zero _)

/-- `StepKeepsTheBlockInvariant`: the machine's own parameters, before the first pass, and a next state. -/
theorem test_witness_machine_invariant : BlockInv params (at_ .rdb) ∧ ∃ t, step (at_ .rdb) = .next t := by
  refine ⟨⟨legal_at .rdb, nofun, ?_, nofun, ⟨[], rfl, nofun, fun _ _ => .inl ⟨rfl, rfl⟩⟩, nofun⟩,
    ⟨_, step_eq_stepWith _⟩⟩
  rintro (h | h | h) <;> cases h

/-- `StepKeepsTheCount`: after five events (95_test_vectors.md 3.1), and a next state. -/
theorem test_witness_count :
    let s : State := { shared false 0x20 0x00 with nedge := 5, nadv := 2 }
    CountInv s ∧ ∃ t, step s = .next t :=
  ⟨⟨⟨by decide, by decide⟩, by decide, by decide⟩, _, step_eq_stepWith _⟩

/-- `ResetMeetsTheBlockInvariant`, `ResetMeetsTheCount`. -/
theorem test_witness_reset_settings : fix.prevReset = 0x00 ∧ fix.toggleReset = true := by decide

/-- `CompareValuesStayBelowTheDivisor`: the bounds, and a table that meets W1. -/
theorem test_witness_divisors :
    1 ≤ (1 : Data).toNat ∧ 2 ≤ (2 : Data).toNat ∧ fix.W1 := by decide

/-- `SelectorWrittenIsOneToSeven`. -/
theorem test_witness_selectors : fix.W2 ∧ fix.W3 := by decide

end Sys2Proof.Tests
end

section
/-!
PROOFS. The lookup contract of 20_memory.md R54: what `lookup` answers, and how many bytes it answers with no index.
-/

namespace Sys2Proof.Machine

/-- The keys are pairwise distinct (20_memory.md R54), so "the least index" is "the only index". -/
theorem key_injective : Function.Injective key := by
  unfold Function.Injective
  decide

theorem lookup_eq_find? (k : Byte) : lookup k = Fin.find? (fun i => key i == k) :=
  Fin.find?_eq_find?_finRange.symm

theorem lookup_eq_some_iff {k : Byte} {i : Fin 20} :
    lookup k = some i ↔ key i = k ∧ ∀ j : Fin 20, j < i → key j ≠ k := by
  simp [lookup_eq_find?]

theorem lookup_eq_none_iff {k : Byte} : lookup k = none ↔ ∀ i : Fin 20, key i ≠ k := by
  simp [lookup_eq_find?]

theorem eq_of_lookup_eq_some {k : Byte} {i j : Fin 20} (hi : lookup k = some i) (hj : key j = k) : j = i :=
  key_injective (hj.trans (lookup_eq_some_iff.mp hi).1.symm)

/-- The numbers of the 20 keys. -/
def keyNumbers : Finset Nat := Finset.univ.image (fun i : Fin 20 => (key i).toNat)

theorem card_keyNumbers : keyNumbers.card = 20 :=
  Finset.card_image_of_injective Finset.univ fun _ _ h => key_injective (BitVec.eq_of_toNat_eq h)

theorem keyNumbers_subset_range : keyNumbers ⊆ Finset.range 256 := by
  intro n hn
  obtain ⟨i, -, rfl⟩ := Finset.mem_image.mp hn
  exact Finset.mem_range.mpr (key i).isLt

theorem lookup_ofNat_isNone_iff {n : Nat} (hn : n < 256) :
    (lookup (BitVec.ofNat 8 n)).isNone ↔ n ∉ keyNumbers := by
  have toNat_eq_iff (i : Fin 20) : key i = BitVec.ofNat 8 n ↔ (key i).toNat = n := by
    rw [BitVec.toNat_eq, BitVec.toNat_ofNat, Nat.mod_eq_of_lt hn]
  simp [lookup_eq_none_iff, toNat_eq_iff, keyNumbers]

/-- Every byte that is not one of the 20 keys is not found, and 256 - 20 = 236. -/
theorem length_filter_lookup_isNone :
    ((List.range 256).filter (fun n => (lookup (BitVec.ofNat 8 n)).isNone)).length = 236 := by
  have notFound_eq : ((List.range 256).filter (fun n => (lookup (BitVec.ofNat 8 n)).isNone)).toFinset =
      Finset.range 256 \ keyNumbers := by
    ext n
    simp only [List.mem_toFinset, List.mem_filter, List.mem_range, Finset.mem_sdiff, Finset.mem_range]
    exact and_congr_right lookup_ofNat_isNone_iff
  rw [← List.toFinset_card_of_nodup (List.nodup_range.filter _), notFound_eq,
    Finset.card_sdiff_of_subset keyNumbers_subset_range, card_keyNumbers, Finset.card_range]

/-- Settles O31: the search over the indices in order answers the least match; the keys are distinct, so it is the only
one, and exactly 20 bytes are found. -/
theorem lookupAnswersTheLeastMatch : Obligations.LookupAnswersTheLeastMatch :=
  ⟨fun _ _ => lookup_eq_some_iff, fun _ _ _ => eq_of_lookup_eq_some, fun _ => lookup_eq_none_iff,
    length_filter_lookup_isNone⟩

end Sys2Proof.Machine
end

section
/-!
PROOFS. The timer register ids and the 35-bit timer write transaction (30_encoding.md R88, R89).
-/

namespace Sys2Proof.Machine

/-- The table of R89 read in both directions. -/
theorem tregOfId_eq_some_iff {c : BitVec 3} {r : TReg} : tregOfId c = some r ↔ c = tregId r := by
  cases r <;> revert c <;> decide

theorem tregOfId_eq_none_iff {c : BitVec 3} : tregOfId c = none ↔ 6 ≤ c.toNat := by
  revert c
  decide

theorem tregId_toNat_lt (r : TReg) : (tregId r).toNat < 6 := by
  cases r <;> decide

theorem encodeTwx_reg (w : TReg × Data) : (encodeTwx w).extractLsb' 32 3 = tregId w.1 :=
  BitVec.extractLsb'_append_eq_left

theorem encodeTwx_data (w : TReg × Data) : (encodeTwx w).extractLsb' 0 32 = w.2 :=
  BitVec.extractLsb'_append_eq_right

/-- A transaction is determined by its two fields: they cover the 35 bits. -/
theorem eq_encodeTwx_iff {x : BitVec 35} {w : TReg × Data} :
    x = encodeTwx w ↔ x.extractLsb' 32 3 = tregId w.1 ∧ x.extractLsb' 0 32 = w.2 := by
  constructor
  · rintro rfl
    exact ⟨encodeTwx_reg w, encodeTwx_data w⟩
  · rintro ⟨hreg, hdata⟩
    calc
      x = x.extractLsb' 32 3 ++ x.extractLsb' 0 32 :=
        (BitVec.extractLsb'_append_extractLsb' (w := 3) (len := 32)).symm
      _ = encodeTwx w := by rw [hreg, hdata, encodeTwx]

/-- The decoder reads the two fields; the data is taken as it stands, the id has to name a register. -/
theorem decodeTwx_eq_some_iff {x : BitVec 35} {w : TReg × Data} :
    decodeTwx x = some w ↔ tregOfId (x.extractLsb' 32 3) = some w.1 ∧ x.extractLsb' 0 32 = w.2 := by
  unfold decodeTwx
  cases tregOfId (x.extractLsb' 32 3) <;> simp [Prod.ext_iff]

/-- Settles O27: word and write agree exactly when they agree in both fields, and the id field names its register. -/
theorem transactionsRoundTrip : Obligations.TransactionsRoundTrip := by
  refine ⟨fun w => ⟨encodeTwx_reg w, encodeTwx_data w⟩, fun x w => ?_⟩
  rw [decodeTwx_eq_some_iff, tregOfId_eq_some_iff, eq_encodeTwx_iff]

end Sys2Proof.Machine
end

section
/-!
PROOFS. The words that select nothing (30_encoding.md R86, R92).
-/

namespace Sys2Proof.Machine

theorem phaseOfCode_eq_none_iff {c : BitVec 4} : phaseOfCode c = none ↔ 13 ≤ c.toNat := by
  revert c
  decide

theorem phaseCode_toNat_lt (p : Phase) : (phaseCode p).toNat < 13 := by
  cases p <;> decide

/-- The decoder refuses a phase code exactly when the look-up of R85 finds no phase for it. -/
theorem decode_ph_eq_reserved_iff {c : BitVec 4} :
    decode (.ph c) = .error (.reservedPhaseCode c) ↔ phaseOfCode c = none := by
  cases h : phaseOfCode c <;> simp [decode, h]

/-- Settles O26: the codes and ids refused are those at or above the bound the tables stay below; reset and the
strobe 0 are computed. -/
theorem reservedCodesAreRefused : Obligations.ReservedCodesAreRefused :=
  ⟨fun _ => phaseOfCode_eq_none_iff.symm.trans decode_ph_eq_reserved_iff.symm, rfl, phaseCode_toNat_lt, rfl,
    tregId_toNat_lt, fun _ => tregOfId_eq_none_iff.symm⟩

end Sys2Proof.Machine
end

section
/-!
PROOFS. What an event does to the whole state, written out on the registers (40_edge_debounce.md R110;
41_state_advance.md R122, R123).
-/

namespace Sys2Proof.Machine

/-- Settles O3: the event either clears a set toggle, or sets a clear one and runs `ADVB`, whose two cases are the two
values of the test on `base`. -/
theorem edgeTogglesAndAdvances : Obligations.EdgeTogglesAndAdvances := by
  refine ⟨rfl, fun s => (exec_eq_effect .edge s).trans (congrArg _ ?_)⟩
  change edgeEffect s = _
  obtain ⟨htog, hedge⟩ | ⟨htog, hedge⟩ := edgeEffect_cases s
  · rw [hedge, if_pos htog]
  · rw [hedge, if_neg (by simp [htog])]
    obtain ⟨hbase, hadv⟩ | ⟨hbase, hadv⟩ := advanceBase_cases { s with tog := true, nedge := s.nedge + 1 }
    · rw [hadv, if_pos hbase]
      rfl
    · rw [hadv, if_neg hbase]
      rfl

end Sys2Proof.Machine
end

section
/-!
PROOFS. The read, mirror, compare and scan operations of the poll agent, each written out on the registers
(42_poll_lookup.md R143 to R146).
-/

namespace Sys2Proof.Machine

/-- The fused read (R143). -/
theorem rdbEffect_of_snapshotAtomic {P : Params} (hfused : P.snapshotAtomic = true) (s : State) :
    rdbEffect P s = { s with cur := s.base ||| s.mult, ph := .mir } := by
  rw [rdbEffect, if_pos hfused]
  rfl

/-- `RDB` with separate reads is the only operation that leads to `RDM` (R143). -/
theorem pollStep_ph_ne_rdm {P : Params} (hfused : P.snapshotAtomic = true) (s : State) :
    (pollStep P s).ph ≠ .rdm := by
  rw [pollStep_eq]
  cases s.ph with
  | rdb => simp [rdbEffect_of_snapshotAtomic hfused]
  | cmp => obtain ⟨-, hcmp⟩ | ⟨-, hcmp⟩ := cmpEffect_cases s <;> simp [hcmp]
  | scan =>
    obtain ⟨-, hend⟩ | ⟨i, -, -, hmatch⟩ | ⟨i, -, -, hmove⟩ := scanEffect_cases P s
    · simp [hend]
    · simp [hmatch]
    · simp [hmove]
  | rdm | mir | wmoff | wcoff | wper | wca | wcb | wcnt | wmon | wcsel => nofun

/-- Settles O6: the branch of `RDB` the fused read takes, and where each phase leads. -/
theorem fusedReadTakesBothFields : Obligations.FusedReadTakesBothFields :=
  fun _ s hfused => ⟨rdbEffect_of_snapshotAtomic hfused s, pollStep_ph_ne_rdm hfused s⟩

/-- Settles O7: `MIR` has no branch, so its code and its effect are computed. -/
theorem mirMirrorsTheKey : Obligations.MirMirrorsTheKey :=
  ⟨rfl, exec_eq_effect .mir⟩

/-- Settles O8: the two outcomes of a comparison are the two values of the test on `cur` and `prev`. -/
theorem cmpTakesAChangedKey : Obligations.CmpTakesAChangedKey := by
  refine ⟨rfl, fun s => (exec_eq_effect .cmp s).trans (congrArg _ ?_)⟩
  change cmpEffect s = _
  obtain ⟨hkey, hcmp⟩ | ⟨hkey, hcmp⟩ := cmpEffect_cases s
  · rw [hcmp, if_pos hkey]
  · rw [hcmp, if_neg hkey]

theorem tableIndex_eq_some {k : Fin 21} {i : Fin 20} (h : k.val = i.val) : tableIndex k = some i := by
  simp [tableIndex, h]

/-- A probe past the last entry, whatever the key (R146). -/
theorem scanEffect_of_idx_eq_twenty (P : Params) {s : State} (h : s.idx = 20) :
    scanEffect P s = { s with ph := .rdb } := by
  have hnone : tableIndex s.idx = none := by rw [h]; rfl
  simp [scanEffect, hnone, State.setPh]

/-- A probe of entry `i` (R146). -/
theorem scanEffect_of_idx_eq (P : Params) {s : State} {i : Fin 20} (h : s.idx.val = i.val) :
    scanEffect P s =
      if key i = s.cur then { s with ed := (P.tune i).div, eps := (P.tune i).ps, ph := .wmoff }
      else { s with idx := i.succ, ph := .scan } := by
  simp [scanEffect, tableIndex_eq_some h, keyMatches, State.latchEntry, State.setIdx, State.setPh]

/-- Settles O9: the index test comes first; below 20 the outcome is the test on the key of the entry. -/
theorem scanProbesOneEntry : Obligations.ScanProbesOneEntry := by
  have exec_scan (s : State) : exec .scan s = .next (scanEffect params s) := exec_eq_effect .scan s
  refine ⟨rfl, fun s hend => ?_, fun s i hidx hkey => ?_, fun s i hidx hkey => ?_⟩
  · rw [exec_scan, scanEffect_of_idx_eq_twenty params hend]
  · rw [exec_scan, scanEffect_of_idx_eq params hidx, if_pos hkey]
    rfl
  · rw [exec_scan, scanEffect_of_idx_eq params hidx, if_neg hkey]

end Sys2Proof.Machine
end

section
/-!
PROOFS. The two duty-cycle values as nearest integers (43_timer_write_sequencer.md R163, R164).
-/

namespace Sys2Proof.Machine

/-- `(n + 50) / 100` is the nearest integer to `n / 100`: it lies in the half-open interval of length one around it that
holds its upper end, and that end is met at a tie alone. -/
theorem add_fifty_div_hundred_nearest (n : Nat) :
    n < 100 * ((n + 50) / 100) + 50 ∧ 100 * ((n + 50) / 100) ≤ n + 50 ∧
      (100 * ((n + 50) / 100) = n + 50 ↔ n % 100 = 50) := by
  omega

/-- The quotient fits the 32 bits of the result. -/
theorem dutyA_toNat (d : Data) : (dutyA d).toNat = (d.toNat + 25) / 50 := by
  have hd : d.toNat < 2 ^ 32 := d.isLt
  exact (BitVec.toNat_ofNat ..).trans (Nat.mod_eq_of_lt (by omega))

/-- The quotient fits the 32 bits of the result, though the dividend does not (R164). -/
theorem dutyB_toNat (d : Data) : (dutyB d).toNat = (51 * d.toNat + 50) / 100 := by
  have hd : d.toNat < 2 ^ 32 := d.isLt
  exact (BitVec.toNat_ofNat ..).trans (Nat.mod_eq_of_lt (by omega))

/-- Settles O52: with the fraction doubled, `floor((d + 25) / 50)` is 2 d hundredths rounded to the nearest. -/
theorem dutyAIsTheNearestInteger : Obligations.DutyAIsTheNearestInteger := by
  intro d
  have hd : d.toNat < 2 ^ 32 := d.isLt
  have doubled : (d.toNat + 25) / 50 = (2 * d.toNat + 50) / 100 := by omega
  have tie : 2 * d.toNat % 100 = 50 ↔ d.toNat % 50 = 25 := by omega
  obtain ⟨above, below, meets⟩ := add_fifty_div_hundred_nearest (2 * d.toNat)
  rw [← doubled, ← dutyA_toNat] at above below meets
  exact ⟨dutyA_toNat d, by omega, above, below, meets.trans tie⟩

/-- Settles O53: `floor((51 d + 50) / 100)` is 51 d hundredths rounded to the nearest; 51 is prime to 100, so the ties of
51 d are those of d. -/
theorem dutyBIsTheNearestInteger : Obligations.DutyBIsTheNearestInteger := by
  intro d
  have hd : d.toNat < 2 ^ 32 := d.isLt
  have tie : 51 * d.toNat % 100 = 50 ↔ d.toNat % 100 = 50 := by omega
  obtain ⟨above, below, meets⟩ := add_fifty_div_hundred_nearest (51 * d.toNat)
  rw [← dutyB_toNat] at above below meets
  exact ⟨dutyB_toNat d, by omega, above, below, meets.trans tie⟩

end Sys2Proof.Machine
end

section
/-!
PROOFS. The eight write phases, each written out on the registers (43_timer_write_sequencer.md R166 to R173).
-/

namespace Sys2Proof.Machine

/-- An operation whose effect is the write phase of one register, value and next phase answers that one write and that
change of phase (R160). -/
theorem exec_of_effect_eq_writePhase {i : Instr} {s : State} (r : TReg) (v : Data) (next : Phase)
    (h : effect params i s = writePhase r v next s) :
    exec i s = .next { s with treg := s.treg.set r v, tlog := s.tlog ++ [(r, v)], ph := next } := by
  rw [exec_eq_effect, h, writePhase_eq]

/-- Settles O10: the two writes that stop the timer. -/
theorem stopWritesModeThenSelector : Obligations.StopWritesModeThenSelector :=
  ⟨rfl, rfl, fun _ =>
    ⟨exec_of_effect_eq_writePhase .mode modeOff .wcoff rfl,
      exec_of_effect_eq_writePhase .clksel clkOff .wper rfl⟩⟩

/-- Settles O11: the three writes of the latched divisor and of the duty values of it. -/
theorem loadWritesPeriodAndCompares : Obligations.LoadWritesPeriodAndCompares :=
  ⟨rfl, rfl, rfl, fun s =>
    ⟨exec_of_effect_eq_writePhase .period s.ed .wca rfl,
      exec_of_effect_eq_writePhase .cmpa (dutyA s.ed) .wcb rfl,
      exec_of_effect_eq_writePhase .cmpb (dutyB s.ed) .wcnt rfl⟩⟩

/-- Settles O12: the three writes that start the timer; the run mode is the one of the machine's setting. -/
theorem startWritesCountModeSelector : Obligations.StartWritesCountModeSelector :=
  ⟨rfl, rfl, rfl, fun s =>
    ⟨exec_of_effect_eq_writePhase .count countZero .wmon rfl,
      exec_of_effect_eq_writePhase .mode params.modeRun .wcsel rfl,
      exec_of_effect_eq_writePhase .clksel (zextSelector s.eps) .rdb rfl⟩⟩

end Sys2Proof.Machine
end

section
/-!
PROOFS. No exception cause exists and every operation is total (60_exceptions.md R190).
-/

namespace Sys2Proof.Machine

/-- Settles O13: a fault has no constructor to be made by, and the effect of an operation is its next state. -/
theorem everyOperationIsTotal : Obligations.EveryOperationIsTotal :=
  ⟨fun cause => (nomatch cause), fun i s => ⟨effect params i s, exec_eq_effect i s⟩⟩

end Sys2Proof.Machine
end

section
/-!
PROOFS. Runs as iterated steps, and what the poll agent's step does at each phase, in the terms the proofs below use.
-/

namespace Sys2Proof.Machine

open Sys2Proof.Safety

/-! ### A burst of one token is the iterate of that agent's step -/

theorem runTokens_replicate (P : Params) (n : Nat) (t : Token) (s : State) :
    runTokens P (List.replicate n t) s = (fun u => tokenStep P u t)^[n] s := by
  induction n generalizing s with
  | zero => rfl
  | succ n ih => exact ih (tokenStep P s t)

theorem runPolls_eq_iterate (P : Params) (n : Nat) (s : State) : runPolls P n s = (pollStep P)^[n] s :=
  runTokens_replicate P n .poll s

theorem runEdges_eq_iterate (P : Params) (n : Nat) (s : State) : runEdges P n s = edgeEffect^[n] s :=
  runTokens_replicate P n .edge s

theorem runPolls_succ (P : Params) (n : Nat) (s : State) :
    runPolls P (n + 1) s = runPolls P n (pollStep P s) := rfl

theorem runPolls_succ' (P : Params) (n : Nat) (s : State) :
    runPolls P (n + 1) s = pollStep P (runPolls P n s) := by
  simp only [runPolls_eq_iterate, Function.iterate_succ_apply']

theorem runEdges_succ (P : Params) (n : Nat) (s : State) :
    runEdges P (n + 1) s = runEdges P n (edgeEffect s) := rfl

/-! ### The phases -/

theorem pollStep_of_rdb_separate {P : Params} {s : State} (hph : s.ph = .rdb) (hsep : P.snapshotAtomic = false) :
    pollStep P s = { s with smp := firstField P s, ph := .rdm } := by
  rw [pollStep_eq, hph]
  simp [rdbEffect, hsep, State.setSmp, State.setPh]

theorem pollStep_of_rdb_fused {P : Params} {s : State} (hph : s.ph = .rdb) (hfused : P.snapshotAtomic = true) :
    pollStep P s = { s with cur := s.base ||| s.mult, ph := .mir } := by
  rw [pollStep_eq, hph]
  exact rdbEffect_of_snapshotAtomic hfused s

theorem pollStep_of_rdm (P : Params) {s : State} (hph : s.ph = .rdm) :
    pollStep P s = { s with cur := s.smp ||| secondField P s, ph := .mir } := by
  rw [pollStep_eq, hph]
  rfl

theorem pollStep_of_mir (P : Params) {s : State} (hph : s.ph = .mir) :
    pollStep P s = { s with statusOut := s.cur, ph := .cmp } := by
  rw [pollStep_eq, hph]
  rfl

theorem pollStep_of_cmp (P : Params) {s : State} (hph : s.ph = .cmp) : pollStep P s = cmpEffect s := by
  rw [pollStep_eq, hph]

theorem pollStep_of_cmp_eq (P : Params) {s : State} (hph : s.ph = .cmp) (hkey : s.cur = s.prev) :
    pollStep P s = { s with ph := .rdb } := by
  rw [pollStep_of_cmp P hph]
  exact (cmpEffect_cases s).elim And.right fun h => absurd hkey h.1

theorem pollStep_of_cmp_ne (P : Params) {s : State} (hph : s.ph = .cmp) (hkey : s.cur ≠ s.prev) :
    pollStep P s = { s with prev := s.cur, idx := 0, ph := .scan } := by
  rw [pollStep_of_cmp P hph]
  exact (cmpEffect_cases s).elim (fun h => absurd h.1 hkey) And.right

theorem pollStep_of_scan (P : Params) {s : State} (hph : s.ph = .scan) : pollStep P s = scanEffect P s := by
  rw [pollStep_eq, hph]

/-- The phase a write phase names as the next one (43_timer_write_sequencer.md R166 to R173). -/
def phaseAfterWrite : Phase → Phase
  | .wmoff => .wcoff
  | .wcoff => .wper
  | .wper => .wca
  | .wca => .wcb
  | .wcb => .wcnt
  | .wcnt => .wmon
  | .wmon => .wcsel
  | .wcsel | .rdb | .rdm | .mir | .cmp | .scan => .rdb

/-- A write phase makes the first write of its programming that is not yet made, and the next phase has one more done;
after the last write the pass is over. -/
theorem pollStep_of_isWritePhase (P : Params) {s : State} (hph : isWritePhase s.ph = true) :
    ∃ r v, (writesOf P s.ed s.eps)[writesDone s.ph]? = some (r, v) ∧
      pollStep P s =
        { s with treg := s.treg.set r v, tlog := s.tlog ++ [(r, v)], ph := phaseAfterWrite s.ph } := by
  rw [pollStep_eq]
  cases hp : s.ph with
  | rdb | rdm | mir | cmp | scan => simp [hp, isWritePhase] at hph
  | wmoff | wcoff | wper | wca | wcb | wcnt | wmon | wcsel => exact ⟨_, _, rfl, rfl⟩

theorem phaseAfterWrite_cases {p : Phase} (hp : isWritePhase p = true) :
    (p = .wcsel ∧ phaseAfterWrite p = .rdb) ∨
      (isWritePhase (phaseAfterWrite p) = true ∧ writesDone (phaseAfterWrite p) = writesDone p + 1) := by
  revert hp
  cases p <;> decide

/-! ### Everything a step of the poll agent can do -/

/-- The outcomes of one step of the poll agent, with the phase and the test that lead to each (10_state.md R28). -/
inductive PollOutcome (P : Params) (s : State) : State → Prop
  | readFirst (hph : s.ph = .rdb) (hsep : P.snapshotAtomic = false) :
      PollOutcome P s { s with smp := firstField P s, ph := .rdm }
  | readBoth (hph : s.ph = .rdb) (hfused : P.snapshotAtomic = true) :
      PollOutcome P s { s with cur := s.base ||| s.mult, ph := .mir }
  | readSecond (hph : s.ph = .rdm) : PollOutcome P s { s with cur := s.smp ||| secondField P s, ph := .mir }
  | mirror (hph : s.ph = .mir) : PollOutcome P s { s with statusOut := s.cur, ph := .cmp }
  | same (hph : s.ph = .cmp) (hkey : s.cur = s.prev) : PollOutcome P s { s with ph := .rdb }
  | changed (hph : s.ph = .cmp) (hkey : s.cur ≠ s.prev) :
      PollOutcome P s { s with prev := s.cur, idx := 0, ph := .scan }
  | exhausted (hph : s.ph = .scan) (hidx : s.idx = 20) : PollOutcome P s { s with ph := .rdb }
  | hit (i : Fin 20) (hph : s.ph = .scan) (hidx : i.val = s.idx.val) (hkey : key i = s.cur) :
      PollOutcome P s { s with ed := (P.tune i).div, eps := (P.tune i).ps, ph := .wmoff }
  | miss (i : Fin 20) (hph : s.ph = .scan) (hidx : i.val = s.idx.val) (hkey : key i ≠ s.cur) :
      PollOutcome P s { s with idx := i.succ, ph := .scan }
  | write (r : TReg) (v : Data) (hph : isWritePhase s.ph = true)
      (hnext : (writesOf P s.ed s.eps)[writesDone s.ph]? = some (r, v)) :
      PollOutcome P s
        { s with treg := s.treg.set r v, tlog := s.tlog ++ [(r, v)], ph := phaseAfterWrite s.ph }

theorem pollOutcome_pollStep (P : Params) (s : State) : PollOutcome P s (pollStep P s) := by
  have write (hph : isWritePhase s.ph = true) : PollOutcome P s (pollStep P s) := by
    obtain ⟨r, v, hnext, heq⟩ := pollStep_of_isWritePhase P hph
    rw [heq]
    exact .write r v hph hnext
  cases hph : s.ph with
  | rdb =>
    cases hfused : P.snapshotAtomic with
    | false => rw [pollStep_of_rdb_separate hph hfused]; exact .readFirst hph hfused
    | true => rw [pollStep_of_rdb_fused hph hfused]; exact .readBoth hph hfused
  | rdm => rw [pollStep_of_rdm P hph]; exact .readSecond hph
  | mir => rw [pollStep_of_mir P hph]; exact .mirror hph
  | cmp =>
    rw [pollStep_of_cmp P hph]
    obtain ⟨hkey, heq⟩ | ⟨hkey, heq⟩ := cmpEffect_cases s <;> rw [heq]
    · exact .same hph hkey
    · exact .changed hph hkey
  | scan =>
    rw [pollStep_of_scan P hph]
    obtain ⟨hidx, heq⟩ | ⟨i, hidx, hkey, heq⟩ | ⟨i, hidx, hkey, heq⟩ := scanEffect_cases P s <;> rw [heq]
    · exact .exhausted hph hidx
    · exact .hit i hph hidx hkey
    · exact .miss i hph hidx hkey
  | wmoff | wcoff | wper | wca | wcb | wcnt | wmon | wcsel => exact write (by rw [hph]; rfl)

end Sys2Proof.Machine
end

section
/-!
PROOFS. Who writes what (60_exceptions.md section 6): the frames of an event, of a step of the poll agent and of every
operation, and what of the state a step of the poll agent reads.
-/

namespace Sys2Proof.Machine

open Sys2Proof.Safety

/-! ### An event -/

@[simp] theorem edgeEffect_ph (s : State) : (edgeEffect s).ph = s.ph := by rw [edgeEffect_eq]
@[simp] theorem edgeEffect_smp (s : State) : (edgeEffect s).smp = s.smp := by rw [edgeEffect_eq]
@[simp] theorem edgeEffect_cur (s : State) : (edgeEffect s).cur = s.cur := by rw [edgeEffect_eq]
@[simp] theorem edgeEffect_prev (s : State) : (edgeEffect s).prev = s.prev := by rw [edgeEffect_eq]
@[simp] theorem edgeEffect_idx (s : State) : (edgeEffect s).idx = s.idx := by rw [edgeEffect_eq]
@[simp] theorem edgeEffect_ed (s : State) : (edgeEffect s).ed = s.ed := by rw [edgeEffect_eq]
@[simp] theorem edgeEffect_eps (s : State) : (edgeEffect s).eps = s.eps := by rw [edgeEffect_eq]
@[simp] theorem edgeEffect_statusOut (s : State) : (edgeEffect s).statusOut = s.statusOut := by rw [edgeEffect_eq]
@[simp] theorem edgeEffect_treg (s : State) : (edgeEffect s).treg = s.treg := by rw [edgeEffect_eq]
@[simp] theorem edgeEffect_tlog (s : State) : (edgeEffect s).tlog = s.tlog := by rw [edgeEffect_eq]
@[simp] theorem edgeEffect_sched (s : State) : (edgeEffect s).sched = s.sched := by rw [edgeEffect_eq]
@[simp] theorem edgeEffect_slot (s : State) : (edgeEffect s).slot = s.slot := by rw [edgeEffect_eq]

/-- Settles O15: the five registers an event updates are none of these. -/
theorem eventLeavesThePollAgentAlone : Obligations.EventLeavesThePollAgentAlone :=
  fun s => ⟨edgeEffect s, exec_eq_effect .edge s, edgeEffect_ph s, edgeEffect_smp s, edgeEffect_cur s,
    edgeEffect_prev s, edgeEffect_idx s, edgeEffect_ed s, edgeEffect_eps s, edgeEffect_statusOut s,
    edgeEffect_treg s, edgeEffect_tlog s, edgeEffect_sched s, edgeEffect_slot s⟩

/-! ### A step of the poll agent -/

/-- The state with other contents in the five registers an event writes (60_exceptions.md section 6). -/
def State.withEdgeRegs (s : State) (base mult : Byte) (tog : Bool) (nedge nadv : Nat) : State :=
  { s with base := base, mult := mult, tog := tog, nedge := nedge, nadv := nadv }

/-- The poll agent does not write the registers an event writes (10_state.md section 2). -/
theorem PollOutcome.eq_withEdgeRegs {P : Params} {s t : State} (h : PollOutcome P s t) :
    t = t.withEdgeRegs s.base s.mult s.tog s.nedge s.nadv := by
  cases h <;> rfl

theorem pollStep_eq_withEdgeRegs (P : Params) (s : State) :
    pollStep P s = (pollStep P s).withEdgeRegs s.base s.mult s.tog s.nedge s.nadv :=
  (pollOutcome_pollStep P s).eq_withEdgeRegs

@[simp] theorem pollStep_base (P : Params) (s : State) : (pollStep P s).base = s.base := by
  rw [pollStep_eq_withEdgeRegs]; rfl

@[simp] theorem pollStep_mult (P : Params) (s : State) : (pollStep P s).mult = s.mult := by
  rw [pollStep_eq_withEdgeRegs]; rfl

@[simp] theorem pollStep_tog (P : Params) (s : State) : (pollStep P s).tog = s.tog := by
  rw [pollStep_eq_withEdgeRegs]; rfl

@[simp] theorem pollStep_nedge (P : Params) (s : State) : (pollStep P s).nedge = s.nedge := by
  rw [pollStep_eq_withEdgeRegs]; rfl

@[simp] theorem pollStep_nadv (P : Params) (s : State) : (pollStep P s).nadv = s.nadv := by
  rw [pollStep_eq_withEdgeRegs]; rfl

/-- What the poll agent's step does depends on these five registers in the two reading phases alone, and there on the
two shared registers alone (10_state.md sections 2 and 5). -/
theorem pollStep_withEdgeRegs (P : Params) {s : State} {b m : Byte} (tog : Bool) (nedge nadv : Nat)
    (hread : s.ph = .rdb ∨ s.ph = .rdm → b = s.base ∧ m = s.mult) :
    pollStep P (s.withEdgeRegs b m tog nedge nadv) = (pollStep P s).withEdgeRegs b m tog nedge nadv := by
  have same_phase : (s.withEdgeRegs b m tog nedge nadv).ph = s.ph := rfl
  rw [pollStep_eq P s, pollStep_eq, same_phase]
  cases hph : s.ph with
  | rdb =>
    obtain ⟨rfl, rfl⟩ := hread (.inl hph)
    unfold rdbEffect
    cases P.snapshotAtomic <;> rfl
  | rdm =>
    obtain ⟨rfl, rfl⟩ := hread (.inr hph)
    rfl
  | cmp => by_cases hkey : s.cur = s.prev <;>
      simp [cmpEffect, unchanged, State.withEdgeRegs, hkey, State.setPrev, State.setIdx, State.setPh]
  | scan =>
    have same_index : (s.withEdgeRegs b m tog nedge nadv).idx = s.idx := rfl
    obtain ⟨hend, -⟩ | ⟨i, hi, -⟩ := tableIndex_cases s.idx
    · rw [scanEffect_of_idx_eq_twenty P hend, scanEffect_of_idx_eq_twenty P (same_index.trans hend)]
      rfl
    · rw [scanEffect_of_idx_eq P hi.symm, scanEffect_of_idx_eq P (same_index ▸ hi.symm)]
      by_cases hkey : key i = s.cur <;> simp [State.withEdgeRegs, hkey]
  | mir | wmoff | wcoff | wper | wca | wcb | wcnt | wmon | wcsel => rfl

/-- Settles O22: the toggle and the ghost counters are of the five registers, and the other two stay. -/
theorem pollAgentNeverSeesTheToggle : Obligations.PollAgentNeverSeesTheToggle := by
  intro P s b m n
  have commutes := pollStep_withEdgeRegs P (s := s) b m n (fun _ => ⟨rfl, rfl⟩)
  simpa only [State.withEdgeRegs, pollStep_base, pollStep_mult] using commutes

/-- Settles O21: away from the reads the step neither sees nor changes what the event does. -/
theorem eventsCommuteWithNonReadingSteps : Obligations.EventsCommuteWithNonReadingSteps := by
  intro P s hrdb hrdm
  rw [edgeEffect_eq (pollStep P s), edgeEffect_eq s]
  simp only [pollStep_base, pollStep_mult, pollStep_tog, pollStep_nedge, pollStep_nadv]
  exact pollStep_withEdgeRegs P _ _ _ fun hread => (hread.elim hrdb hrdm).elim

/-! ### Every operation -/

/-- The operations that name a timer register are write phases of it (R160). -/
theorem effect_of_timerTarget_eq_some (P : Params) {i : Instr} {r : TReg} (s : State)
    (htarget : timerTarget i = some r) : ∃ v next, effect P i s = writePhase r v next s := by
  cases i <;> cases htarget <;> exact ⟨_, _, rfl⟩

/-- Settles O14: every operation is a register update, some of them with a test, and each updates only what the table
lists for it. -/
theorem onlyTheListedOperationsWrite : Obligations.OnlyTheListedOperationsWrite := by
  intro P i s
  cases htarget : timerTarget i with
  | some r =>
    obtain ⟨v, next, heq⟩ := effect_of_timerTarget_eq_some P s htarget
    have hedge : i ≠ .edge := by rintro rfl; cases htarget
    simp [heq, writePhase_eq, hedge]
  | none =>
    cases i with
    | edge => simp [effect]
    | rdb => cases hfused : P.snapshotAtomic <;> simp [effect, rdbEffect, hfused]
    | rdm => simp [effect, rdmEffect]
    | mir => simp [effect, mirEffect]
    | cmp => obtain ⟨-, heq⟩ | ⟨-, heq⟩ := cmpEffect_cases s <;> simp [effect, heq]
    | scan =>
      obtain ⟨-, heq⟩ | ⟨_, -, -, heq⟩ | ⟨_, -, -, heq⟩ := scanEffect_cases P s <;> simp [effect, heq]
    | wmoff | wcoff | wper | wca | wcb | wcnt | wmon | wcsel => cases htarget

@[simp] theorem TimerRegs.get_set_same (t : TimerRegs) (r : TReg) (v : Data) : (t.set r v).get r = v := by
  obtain ⟨-, h⟩ | ⟨hne, -⟩ := t.get_set_cases r r v
  · exact h
  · exact absurd rfl hne

theorem TimerRegs.get_set_of_ne (t : TimerRegs) {r q : TReg} (v : Data) (hne : q ≠ r) :
    (t.set r v).get q = t.get q := by
  obtain ⟨heq, -⟩ | ⟨-, h⟩ := t.get_set_cases r q v
  · exact absurd heq hne
  · exact h

/-- Settles O17: the two cases of reading a shadow back. -/
theorem shadowReadsBackTheWrite : Obligations.ShadowReadsBackTheWrite := by
  intro s r q v
  refine ⟨?_, rfl⟩
  split
  case isTrue heq => rw [heq, State.tw_treg, TimerRegs.get_set_same]
  case isFalse hne => exact s.treg.get_set_of_ne v hne

/-- Settles O16: an operation with a target is the write phase of that register; one without leaves shadows and log. -/
theorem eachWritePhaseTouchesOneTimerRegister : Obligations.EachWritePhaseTouchesOneTimerRegister := by
  intro i s
  refine ⟨effect params i s, exec_eq_effect i s, ?_⟩
  cases htarget : timerTarget i with
  | some r =>
    obtain ⟨v, next, heq⟩ := effect_of_timerTarget_eq_some params s htarget
    rw [heq, writePhase_eq]
    refine ⟨fun q hq => s.treg.get_set_of_ne v fun h => hq (h ▸ rfl), fun r' hr' => ?_, nofun⟩
    cases hr'
    rw [TimerRegs.get_set_same]
  | none =>
    obtain ⟨-, -, -, -, -, -, -, -, untouched, -⟩ := onlyTheListedOperationsWrite params i s
    obtain ⟨htreg, htlog⟩ := untouched htarget
    exact ⟨fun q _ => by rw [htreg], nofun, fun _ => htlog⟩

end Sys2Proof.Machine
end

section
/-!
PROOFS. The shared registers (10_state.md R24, 41_state_advance.md section 4): legal field values and their union, the
cycle of advances, and the events that make them (40_edge_debounce.md section 2).
-/

namespace Sys2Proof.Safety

open Sys2Proof.Machine

/-! ### Legal field values and their union -/

theorem bval_injective : ∀ a < 5, ∀ b < 5, bval a = bval b → a = b := by decide

theorem mval_injective : ∀ a < 4, ∀ b < 4, mval a = mval b → a = b := by decide

theorem baseField_union : ∀ b < 5, ∀ m < 4, baseField (bval b ||| mval m) = bval b := by decide

theorem multField_union : ∀ b < 5, ∀ m < 4, multField (bval b ||| mval m) = mval m := by decide

/-- The union of the base position `b` and the multiplier value `m` is the key of entry `5 m + b` (R120). -/
theorem key_eq_union {b m : Nat} (hb : b < 5) (hm : m < 4) :
    key ⟨5 * m + b, by omega⟩ = bval b ||| mval m := by
  have hdiv : (5 * m + b) / 5 = m := by omega
  have hmod : (5 * m + b) % 5 = b := by omega
  rw [key, seq, hdiv, hmod, BitVec.or_comm]

section Union

variable {b m b' m' : Byte} (hb : LegalBase b) (hm : LegalMult m)
include hb hm

theorem exists_key_eq_union : ∃ i, key i = b ||| m := by
  obtain ⟨j, hj, rfl⟩ := hb
  obtain ⟨k, hk, rfl⟩ := hm
  exact ⟨_, key_eq_union hj hk⟩

theorem baseField_of_legal : baseField (b ||| m) = b := by
  obtain ⟨j, hj, rfl⟩ := hb
  obtain ⟨k, hk, rfl⟩ := hm
  exact baseField_union j hj k hk

theorem multField_of_legal : multField (b ||| m) = m := by
  obtain ⟨j, hj, rfl⟩ := hb
  obtain ⟨k, hk, rfl⟩ := hm
  exact multField_union j hj k hk

/-- The union of legal fields loses nothing. -/
theorem union_eq_union_iff (hb' : LegalBase b') (hm' : LegalMult m') :
    b ||| m = b' ||| m' ↔ b = b' ∧ m = m' := by
  constructor
  · intro h
    exact ⟨by rw [← baseField_of_legal hb hm, h, baseField_of_legal hb' hm'],
      by rw [← multField_of_legal hb hm, h, multField_of_legal hb' hm']⟩
  · rintro ⟨rfl, rfl⟩
    rfl

end Union

/-- Settles O32: the two fields of a legal pair keep their places in the union. -/
theorem legalUnionIsAKeyAndLossless : Obligations.LegalUnionIsAKeyAndLossless :=
  fun _ ⟨hb, hm⟩ => ⟨exists_key_eq_union hb hm, baseField_of_legal hb hm, multField_of_legal hb hm⟩

/-! ### The cycle of advances -/

theorem AtCount.legalFields {k : Nat} {s : State} (h : AtCount k s) : LegalFields s :=
  ⟨⟨k % 5, Nat.mod_lt _ (by decide), h.1⟩, ⟨k / 5 % 4, Nat.mod_lt _ (by decide), h.2⟩⟩

theorem LegalFields.exists_atCount {s : State} (h : LegalFields s) : ∃ k, AtCount k s := by
  obtain ⟨⟨b, hb, hbase⟩, ⟨m, hm, hmult⟩⟩ := h
  have hmod : (5 * m + b) % 5 = b := by omega
  have hdiv : (5 * m + b) / 5 % 4 = m := by omega
  exact ⟨5 * m + b, by rw [hbase, hmod], by rw [hmult, hdiv]⟩

theorem bval_eq_last_iff : ∀ b < 5, bval b = 0x80 ↔ b = 4 := by decide

theorem shl8_bval : ∀ b < 4, shl8 (bval b) = bval (b + 1) := by decide

theorem nextMult_mval : ∀ m < 4, nextMult (mval m) = mval ((m + 1) % 4) := by decide

/-- `ADVB` is one step of the cycle: the base position moves up, and the multiplier value with it at the last one
(R122, R123, R124). -/
theorem AtCount.advance {k : Nat} {s : State} (h : AtCount k s) : AtCount (k + 1) (advanceBase s) := by
  obtain ⟨hbase, hmult⟩ := h
  have hlast : s.base = 0x80 ↔ k % 5 = 4 := hbase ▸ bval_eq_last_iff _ (Nat.mod_lt _ (by decide))
  obtain ⟨hb, heq⟩ | ⟨hb, heq⟩ := advanceBase_cases s <;> rw [heq]
  · have hmod : (k + 1) % 5 = 0 := by have := hlast.mp hb; omega
    have hdiv : (k + 1) / 5 % 4 = (k / 5 % 4 + 1) % 4 := by omega
    refine ⟨?_, ?_⟩
    · rw [hmod]; rfl
    · rw [hdiv, ← nextMult_mval _ (Nat.mod_lt _ (by decide)), ← hmult]
  · have hlt : k % 5 < 4 := by have := mt hlast.mpr hb; omega
    have hmod : (k + 1) % 5 = k % 5 + 1 := by omega
    have hdiv : (k + 1) / 5 % 4 = k / 5 % 4 := by omega
    refine ⟨?_, ?_⟩
    · rw [hmod, ← shl8_bval _ hlt, ← hbase]
    · rw [hdiv, ← hmult]

theorem AtCount.advance_iterate {k : Nat} {s : State} (h : AtCount k s) (n : Nat) :
    AtCount (k + n) (advanceBase^[n] s) := by
  induction n with
  | zero => exact h
  | succ n ih =>
    rw [Function.iterate_succ_apply']
    exact ih.advance

theorem AtCount.base_eq_iff {j k : Nat} {s t : State} (hs : AtCount j s) (ht : AtCount k t) :
    t.base = s.base ↔ k % 5 = j % 5 := by
  rw [hs.1, ht.1]
  exact ⟨bval_injective _ (Nat.mod_lt _ (by decide)) _ (Nat.mod_lt _ (by decide)), congrArg bval⟩

theorem AtCount.mult_eq_iff {j k : Nat} {s t : State} (hs : AtCount j s) (ht : AtCount k t) :
    t.mult = s.mult ↔ k / 5 % 4 = j / 5 % 4 := by
  rw [hs.2, ht.2]
  exact ⟨mval_injective _ (Nat.mod_lt _ (by decide)) _ (Nat.mod_lt _ (by decide)), congrArg mval⟩

/-- What any number of advances writes. -/
theorem advanceBase_iterate_eq (n : Nat) (s : State) :
    advanceBase^[n] s =
      { s with
        base := (advanceBase^[n] s).base, mult := (advanceBase^[n] s).mult, nadv := s.nadv + n } := by
  induction n with
  | zero => rfl
  | succ n ih =>
    rw [Function.iterate_succ_apply']
    generalize advanceBase^[n] s = t at ih ⊢
    obtain ⟨-, heq⟩ | ⟨-, heq⟩ := advanceBase_cases t <;> rw [heq, ih] <;> rfl

@[simp] theorem advanceBase_iterate_nadv (n : Nat) (s : State) : (advanceBase^[n] s).nadv = s.nadv + n := by
  rw [advanceBase_iterate_eq]

/-- The enumeration joins the fields of its two counters, the inner one modulo 5 and the outer one modulo 4. -/
theorem AtCount.union_eq_seq {k : Nat} {s : State} (h : AtCount k s) : s.base ||| s.mult = seq (k % 20) := by
  have hmod : k % 20 % 5 = k % 5 := by omega
  have hdiv : k % 20 / 5 = k / 5 % 4 := by omega
  rw [seq, hmod, hdiv, ← h.1, ← h.2, BitVec.or_comm]

/-- Settles O33: k advances from count 0 lead to count k. -/
theorem advancesFollowTheEnumeration : Obligations.AdvancesFollowTheEnumeration := by
  intro k s hbase hmult
  have start : AtCount 0 s := ⟨hbase, hmult⟩
  have reached : AtCount k (advanceBase^[k] s) := by simpa using start.advance_iterate k
  exact ⟨reached.union_eq_seq, reached.1, reached.2, advanceBase_iterate_nadv k s⟩

/-- Settles O34: the two counters come back together exactly at the multiples of 5 · 4. -/
theorem cycleLengthIsTwenty : Obligations.CycleLengthIsTwenty := by
  intro s n hlegal
  obtain ⟨k, start⟩ := hlegal.exists_atCount
  have reached := start.advance_iterate n
  rw [start.base_eq_iff reached, start.mult_eq_iff reached]
  omega

/-! ### Events -/

/-- How many of `n` events advance, by the toggle before them (R111): every second one, the first when it is clear. -/
def advancesOf (tog : Bool) (n : Nat) : Nat := if tog = true then n / 2 else (n + 1) / 2

/-- The toggle after `n` events (R111). -/
def togAfter (tog : Bool) (n : Nat) : Bool := if n % 2 = 0 then tog else !tog

theorem advances_succ (tog : Bool) (n : Nat) :
    (togAfter tog n = true ∧ togAfter tog (n + 1) = false ∧ advancesOf tog (n + 1) = advancesOf tog n) ∨
    (togAfter tog n = false ∧ togAfter tog (n + 1) = true ∧
      advancesOf tog (n + 1) = advancesOf tog n + 1) := by
  unfold togAfter advancesOf
  cases tog <;> rcases Nat.mod_two_eq_zero_or_one n with h | h <;> simp [h, Nat.succ_mod_two_eq_one_iff] <;> omega

/-- The advance neither reads nor writes the toggle and the event counter. -/
theorem advanceBase_withToggle (s : State) (tog : Bool) (n : Nat) :
    advanceBase { s with tog := tog, nedge := n } = { advanceBase s with tog := tog, nedge := n } := by
  unfold advanceBase
  by_cases hb : s.base = 0x80 <;> simp only [hb, if_true, if_false] <;> rfl

/-- A burst of events: half of them advance, the toggle ends at their parity, and all of them count. -/
theorem edgeEffect_iterate_eq (n : Nat) (s : State) :
    edgeEffect^[n] s =
      { advanceBase^[advancesOf s.tog n] s with tog := togAfter s.tog n, nedge := s.nedge + n } := by
  induction n with
  | zero => simp [advancesOf, togAfter]
  | succ n ih =>
    rw [Function.iterate_succ_apply', ih]
    obtain ⟨htog, htog', hk⟩ | ⟨htog, htog', hk⟩ := advances_succ s.tog n <;> rw [htog, htog', hk]
    · obtain ⟨-, heq⟩ | ⟨hclear, -⟩ := edgeEffect_cases
        { advanceBase^[advancesOf s.tog n] s with tog := true, nedge := s.nedge + n }
      · exact heq
      · cases hclear
    · obtain ⟨hset, -⟩ | ⟨-, heq⟩ := edgeEffect_cases
        { advanceBase^[advancesOf s.tog n] s with tog := false, nedge := s.nedge + n }
      · cases hset
      · rw [heq, Function.iterate_succ_apply']
        exact advanceBase_withToggle (advanceBase^[advancesOf s.tog n] s) true (s.nedge + n + 1)

/-- Settles O35: the fields of a burst of events. -/
theorem eventsAdvanceInPairs : Obligations.EventsAdvanceInPairs := by
  intro P n s
  rw [runEdges_eq_iterate, edgeEffect_iterate_eq]
  exact ⟨advanceBase_iterate_nadv _ s, rfl, rfl, rfl, rfl⟩

/-- Settles O36: 40 events are 20 advances, a whole cycle. -/
theorem fortyEventsReturnTheState : Obligations.FortyEventsReturnTheState := by
  intro P s hlegal
  have htwenty : advancesOf s.tog 40 = 20 := by cases s.tog <;> rfl
  obtain ⟨hbase, hmult⟩ := (cycleLengthIsTwenty s 20 hlegal).mpr (Nat.dvd_refl 20)
  rw [runEdges_eq_iterate, edgeEffect_iterate_eq, htwenty, advanceBase_iterate_eq, hbase, hmult]
  rfl

end Sys2Proof.Safety
end

section
/-!
PROOFS. The two invariants of the running block, kept by every step of either agent: the count of advances
(41_state_advance.md section 4, 40_edge_debounce.md section 2) and the block's invariant (10_state.md sections 2, 4, 6).
-/

namespace Sys2Proof.Safety

open Sys2Proof.Machine

/-! ### A step is an event or a step of the poll agent -/

theorem eq_stepWith_of_step_eq_next {s t : State} (h : step s = .next t) : t = stepWith params s := by
  rw [step_eq_stepWith] at h
  cases h
  rfl

/-- What both agents and the use of a slot keep, a step keeps. -/
theorem stepWith_keeps {I : State → Prop} {P : Params} (hpop : ∀ s, I s → I s.popSlot)
    (hedge : ∀ s, I s → I (edgeEffect s)) (hpoll : ∀ s, I s → I (pollStep P s)) {s : State} (h : I s) :
    I (stepWith P s) := by
  unfold stepWith
  cases slotToken P s with
  | edge => exact hedge _ (hpop s h)
  | poll => exact hpoll _ (hpop s h)

/-! ### The count of advances -/

theorem CountInv.popSlot {s : State} (h : CountInv s) : CountInv s.popSlot := ⟨h.shared, h.halved, h.parity⟩

theorem CountInv.pollStep {P : Params} {s : State} (h : CountInv s) : CountInv (pollStep P s) where
  shared := by simpa [AtCount] using h.shared
  halved := by simpa using h.halved
  parity := by simpa using h.parity

/-- An event at a set toggle makes the count of events odd; one at a clear toggle makes it even, and advances. -/
theorem CountInv.edgeEffect {s : State} (h : CountInv s) : CountInv (edgeEffect s) := by
  obtain ⟨hshared, hhalved, hparity⟩ := h
  obtain ⟨htog, heq⟩ | ⟨htog, heq⟩ := edgeEffect_cases s <;> rw [heq] <;> rw [htog] at hparity
  · have heven : s.nedge % 2 = 0 := by simpa using hparity
    have hodd : ¬(s.nedge + 1) % 2 = 0 := by omega
    refine ⟨hshared, ?_, (decide_eq_false hodd).symm⟩
    change s.nadv = (s.nedge + 1) / 2
    omega
  · have hodd : s.nedge % 2 = 1 := by simpa using hparity
    have heven : (s.nedge + 1) % 2 = 0 := by omega
    have hcount : (advanceBase s).nadv = s.nadv + 1 := advanceBase_iterate_nadv 1 s
    rw [advanceBase_withToggle]
    refine ⟨?_, ?_, (decide_eq_true heven).symm⟩
    · simpa only [AtCount, hcount] using hshared.advance
    · change (advanceBase s).nadv = (s.nedge + 1) / 2
      omega

/-- Settles O59: each agent keeps the count, by the parity of the events. -/
theorem stepKeepsTheCount : Obligations.StepKeepsTheCount := by
  have keeps (P : Params) (s : State) : CountInv s → CountInv (stepWith P s) :=
    stepWith_keeps (I := CountInv) (fun _ => CountInv.popSlot) (fun _ => CountInv.edgeEffect)
      (fun _ => CountInv.pollStep)
  exact ⟨fun s t h hstep => eq_stepWith_of_step_eq_next hstep ▸ keeps params s h, keeps⟩

theorem atCount_resetWith (P : Params) : AtCount 0 (State.resetWith P) := ⟨rfl, rfl⟩

/-- Settles O60: no event and no advance at the initial pair. -/
theorem resetMeetsTheCount : Obligations.ResetMeetsTheCount := by
  have reset (P : Params) (htog : P.toggleReset = true) : CountInv (State.resetWith P) :=
    ⟨atCount_resetWith P, (Nat.zero_div 2).symm, htog⟩
  exact ⟨reset params rfl, reset⟩

/-! ### The write log and the shadows -/

theorem lastWrite_append (r : TReg) (a b : List (TReg × Data)) :
    lastWrite r (a ++ b) = (lastWrite r b).or (lastWrite r a) := by
  simp [lastWrite, List.find?_append, Option.map_or]

theorem lastWrite_singleton (r q : TReg) (v : Data) : lastWrite q [(r, v)] = if r = q then some v else none := by
  by_cases h : r = q <;> simp [lastWrite, h]

/-- The shadows stay the last logged writes when a write goes to both. -/
theorem shadowed_write {t : TimerRegs} {log : List (TReg × Data)}
    (h : ∀ q w, lastWrite q log = some w → t.get q = w) (r : TReg) (v : Data) :
    ∀ q w, lastWrite q (log ++ [(r, v)]) = some w → (t.set r v).get q = w := by
  intro q w hw
  rw [lastWrite_append, lastWrite_singleton] at hw
  by_cases heq : r = q
  · subst heq
    simpa using hw
  · rw [t.get_set_of_ne v (Ne.symm heq)]
    exact h q w (by simpa [heq] using hw)

theorem writesDone_of_not_write {p : Phase} (h : isWritePhase p = false) : writesDone p = 0 := by
  revert h
  cases p <;> decide

/-- Is the phase one of reading, mirroring and comparing? -/
def isBeforeScan : Phase → Bool
  | .rdb | .rdm | .mir | .cmp => true
  | .scan | .wmoff | .wcoff | .wper | .wca | .wcb | .wcnt | .wmon | .wcsel => false

theorem not_write_of_isBeforeScan {p : Phase} (h : isBeforeScan p = true) : isWritePhase p = false ∧ p ≠ .scan := by
  revert h
  cases p <;> decide

/-- Outside a programming the log is complete groups alone. -/
theorem logIs_iff_of_writesDone_eq_zero {P : Params} {done : List (Fin 20)} {s : State} (h : writesDone s.ph = 0) :
    LogIs P done s ↔ s.tlog = done.flatMap (entryWrites P) := by
  simp [LogIs, h]

/-! ### The block's invariant -/

section Reading

variable {P : Params} {s : State} (hlegal : LegalFields s)
include hlegal

theorem legalFirst_firstField : LegalFirst P (firstField P s) := by
  unfold LegalFirst firstField
  cases P.readOrder
  · exact hlegal.1
  · exact hlegal.2

/-- The union of a legal first read and a legal second read is a key, whatever came between them (R231). -/
theorem exists_key_eq_read {v : Byte} (hv : LegalFirst P v) : ∃ i, key i = v ||| secondField P s := by
  unfold LegalFirst at hv
  unfold secondField
  cases hr : P.readOrder <;> rw [hr] at hv
  · exact exists_key_eq_union hv hlegal.2
  · simpa only [BitVec.or_comm] using exists_key_eq_union hlegal.1 hv

theorem LegalFields.edgeEffect : LegalFields (edgeEffect s) := by
  obtain ⟨-, heq⟩ | ⟨-, heq⟩ := edgeEffect_cases s <;> rw [heq]
  · exact hlegal
  · obtain ⟨k, hk⟩ := hlegal.exists_atCount
    rw [advanceBase_withToggle]
    exact hk.advance.legalFields

end Reading

section BlockInvariant

variable {P : Params} {s t : State} (h : BlockInv P s)
include h

theorem BlockInv.popSlot : BlockInv P s.popSlot :=
  ⟨h.legal, h.sampled, h.keyed, h.scanned, h.logged, h.shadowed⟩

/-- An event changes the shared registers alone of what the invariant speaks of, and keeps their values legal. -/
theorem BlockInv.edgeEffect : BlockInv P (edgeEffect s) := by
  have hlegal := h.legal.edgeEffect
  rw [edgeEffect_eq] at hlegal ⊢
  exact ⟨hlegal, h.sampled, h.keyed, h.scanned, h.logged, h.shadowed⟩

/-- The byte a scan looks for is the key of an entry the scan has not passed (R147). -/
theorem BlockInv.exists_key_of_scan (hph : s.ph = .scan) : ∃ i : Fin 20, key i = s.cur ∧ s.idx.val ≤ i.val := by
  obtain ⟨i, hi⟩ := h.keyed (.inr (.inr hph))
  obtain ⟨-, hpassed⟩ := h.scanned hph
  exact ⟨i, hi, Nat.le_of_not_lt fun hlt => hpassed i hlt hi⟩

/-- The log outside a programming. -/
theorem BlockInv.exists_groups (hph : isWritePhase s.ph = false) :
    ∃ done : List (Fin 20), s.tlog = done.flatMap (entryWrites P) ∧
      (s.ph ≠ .scan → (done = [] ∧ s.prev = 0x00) ∨ ∃ i, done.getLast? = some i ∧ key i = s.prev) := by
  obtain ⟨done, hlog, -, hlast⟩ := h.logged
  exact ⟨done, (logIs_iff_of_writesDone_eq_zero (writesDone_of_not_write hph)).mp hlog, hlast hph⟩

/-- From one phase before the scan to another, with what is said of the latch and of the key. -/
theorem BlockInv.read {smp cur status : Byte} {p : Phase} (hs : isBeforeScan s.ph = true)
    (hp : isBeforeScan p = true) (hsmp : p = .rdm → LegalFirst P smp)
    (hcur : p = .mir ∨ p = .cmp → ∃ i, key i = cur) :
    BlockInv P { s with smp := smp, cur := cur, statusOut := status, ph := p } := by
  obtain ⟨hs, hscan⟩ := not_write_of_isBeforeScan hs
  obtain ⟨hp, hpscan⟩ := not_write_of_isBeforeScan hp
  obtain ⟨done, hlog, hlast⟩ := h.exists_groups hs
  refine ⟨h.legal, hsmp, fun hk => hcur (by simpa [hpscan] using hk), fun hk => absurd hk hpscan, ?_, h.shadowed⟩
  refine ⟨done, (logIs_iff_of_writesDone_eq_zero (writesDone_of_not_write hp)).mpr hlog, ?_, fun _ _ => hlast hscan⟩
  intro hw
  exact absurd hw (by simp [hp])

/-- A write phase: the log grows by the next write of the latched entry, and a group is complete after the last. -/
theorem BlockInv.write {r : TReg} {v : Data} (hph : isWritePhase s.ph = true)
    (hnext : (writesOf P s.ed s.eps)[writesDone s.ph]? = some (r, v)) :
    BlockInv P { s with treg := s.treg.set r v, tlog := s.tlog ++ [(r, v)], ph := phaseAfterWrite s.ph } := by
  obtain ⟨done, hlog, hentry, -⟩ := h.logged
  obtain ⟨i, hkey, hed, heps⟩ := hentry hph
  have hgrown : s.tlog ++ [(r, v)] =
      done.flatMap (entryWrites P) ++ (writesOf P s.ed s.eps).take (writesDone s.ph + 1) := by
    rw [hlog, List.append_assoc, List.take_add_one, hnext]
    rfl
  have hshadow := shadowed_write h.shadowed r v
  obtain ⟨hlast, hafter⟩ | ⟨hwrite, hdone⟩ := phaseAfterWrite_cases hph
  · rw [hafter]
    refine ⟨h.legal, nofun, by simp, nofun, ?_, hshadow⟩
    refine ⟨done ++ [i], ?_, nofun, fun _ _ => .inr ⟨i, List.getLast?_concat, hkey⟩⟩
    refine (logIs_iff_of_writesDone_eq_zero rfl).mpr ?_
    rw [hgrown, hlast, List.flatMap_append, List.flatMap_singleton, entryWrites, ← hed, ← heps]
    rfl
  · have hphases : ∀ p, isWritePhase p = false → phaseAfterWrite s.ph ≠ p := by
      rintro p hp rfl
      simp [hp] at hwrite
    refine ⟨h.legal, fun hk => absurd hk (hphases _ rfl), ?_, fun hk => absurd hk (hphases _ rfl), ?_, hshadow⟩
    · rintro (hk | hk | hk) <;> exact absurd hk (hphases _ rfl)
    · refine ⟨done, ?_, fun _ => ⟨i, hkey, hed, heps⟩, fun hk => absurd hk (by simp [hwrite])⟩
      exact hgrown.trans (by rw [hdone])

/-- Each outcome of the poll agent's step keeps the invariant; a scan of the whole table without a match is no outcome
while it holds. -/
theorem BlockInv.pollOutcome (ho : PollOutcome P s t) : BlockInv P t := by
  cases ho with
  | readFirst hph hsep =>
    exact h.read (by rw [hph]; rfl) rfl (fun _ => legalFirst_firstField h.legal) (by simp)
  | readBoth hph hfused =>
    exact h.read (by rw [hph]; rfl) rfl nofun
      fun _ => exists_key_eq_union h.legal.1 h.legal.2
  | readSecond hph =>
    exact h.read (by rw [hph]; rfl) rfl nofun
      fun _ => exists_key_eq_read h.legal (h.sampled hph)
  | mirror hph =>
    exact h.read (by rw [hph]; rfl) rfl nofun fun _ => h.keyed (.inl hph)
  | same hph hkey => exact h.read (by rw [hph]; rfl) rfl nofun (by simp)
  | changed hph hkey =>
    obtain ⟨done, hlog, -⟩ := h.exists_groups (by rw [hph]; rfl)
    refine ⟨h.legal, nofun, fun _ => h.keyed (.inr (.inl hph)), fun _ => ⟨rfl, nofun⟩, ?_, h.shadowed⟩
    exact ⟨done, (logIs_iff_of_writesDone_eq_zero rfl).mpr hlog, nofun, fun _ hscan => absurd rfl hscan⟩
  | exhausted hph hidx =>
    obtain ⟨i, -, hi⟩ := h.exists_key_of_scan hph
    rw [hidx] at hi
    exact absurd i.isLt (Nat.not_lt.mpr hi)
  | hit i hph hidx hkey =>
    obtain ⟨done, hlog, -⟩ := h.exists_groups (by rw [hph]; rfl)
    obtain ⟨hprev, -⟩ := h.scanned hph
    refine ⟨h.legal, nofun, by simp, nofun, ?_, h.shadowed⟩
    exact ⟨done, (logIs_iff_of_writesDone_eq_zero rfl).mpr hlog,
      fun _ => ⟨i, hkey.trans hprev.symm, rfl, rfl⟩, nofun⟩
  | miss i hph hidx hkey =>
    obtain ⟨done, hlog, -⟩ := h.exists_groups (by rw [hph]; rfl)
    obtain ⟨hprev, hpassed⟩ := h.scanned hph
    refine ⟨h.legal, nofun, fun _ => h.keyed (.inr (.inr hph)), fun _ => ⟨hprev, fun j hj => ?_⟩, ?_,
      h.shadowed⟩
    · obtain hlt | heq := Nat.lt_succ_iff_lt_or_eq.mp hj
      · exact hpassed j (hidx ▸ hlt)
      · exact (Fin.ext heq : j = i) ▸ hkey
    · exact ⟨done, (logIs_iff_of_writesDone_eq_zero rfl).mpr hlog, nofun, fun _ hscan => absurd rfl hscan⟩
  | write r v hph hnext => exact h.write hph hnext

end BlockInvariant

/-- Settles O46: an event keeps the invariant, and so does every outcome of the poll agent's step. -/
theorem everySettingKeepsTheBlockInvariant : Obligations.EverySettingKeepsTheBlockInvariant :=
  fun P _ => stepWith_keeps (I := BlockInv P) (fun _ => BlockInv.popSlot) (fun _ => BlockInv.edgeEffect)
    fun s h => h.pollOutcome (pollOutcome_pollStep P s)

/-- Settles O45: the machine is the parametric one at its own setting. -/
theorem stepKeepsTheBlockInvariant : Obligations.StepKeepsTheBlockInvariant :=
  fun s _ h hstep => eq_stepWith_of_step_eq_next hstep ▸ everySettingKeepsTheBlockInvariant params s h

/-- Settles O47: nothing is read, programmed or logged yet. -/
theorem resetMeetsTheBlockInvariant : Obligations.ResetMeetsTheBlockInvariant := by
  have reset (P : Params) (hprev : P.prevReset = 0x00) : BlockInv P (State.resetWith P) :=
    { legal := (atCount_resetWith P).legalFields
      sampled := nofun
      keyed := by simp [State.resetWith]
      scanned := nofun
      logged := ⟨[], rfl, nofun, fun _ _ => .inl ⟨rfl, hprev⟩⟩
      shadowed := nofun }
  exact ⟨reset params rfl, reset⟩

end Sys2Proof.Safety
end

section
/-!
PROOFS. What a register holds before it is written never matters (10_state.md section 13): two states that agree on
what may still be read go on agreeing, step by step of either agent.
-/

namespace Sys2Proof.Safety

open Sys2Proof.Machine

/-- The next write of a programming is made of the registers live at its phase. -/
theorem getElem?_writesOf_congr (P : Params) {p : Phase} {d d' : Data} {ps ps' : Byte}
    (hp : isWritePhase p = true) (hed : edLive p = true → d = d') (heps : epsLive p = true → ps = ps') :
    (writesOf P d ps)[writesDone p]? = (writesOf P d' ps')[writesDone p]? := by
  cases p with
  | rdb | rdm | mir | cmp | scan => cases hp
  | wmoff | wcoff | wcnt | wmon => rfl
  | wper | wca | wcb => rw [hed rfl]; rfl
  | wcsel => rw [heps rfl]; rfl

/-- No register becomes live by a write phase. -/
theorem live_phaseAfterWrite {p : Phase} (hp : isWritePhase p = true) :
    smpLive (phaseAfterWrite p) = false ∧ curLive (phaseAfterWrite p) = false ∧
      idxLive (phaseAfterWrite p) = false ∧ (edLive (phaseAfterWrite p) = true → edLive p = true) ∧
      (epsLive (phaseAfterWrite p) = true → epsLive p = true) := by
  revert hp
  cases p <;> decide

section Agreement

variable {P : Params} {s t : State} (h : AgreeOnRead s t)
include h

theorem AgreeOnRead.edgeEffect : AgreeOnRead (edgeEffect s) (edgeEffect t) := by
  rw [edgeEffect_eq s, edgeEffect_eq t, h.base, h.mult, h.tog, h.nedge, h.nadv]
  exact { h with base := rfl, mult := rfl, tog := rfl, nedge := rfl, nadv := rfl }

theorem AgreeOnRead.firstField_eq : firstField P s = firstField P t := by
  unfold firstField
  rw [h.base, h.mult]

theorem AgreeOnRead.secondField_eq : secondField P s = secondField P t := by
  unfold secondField
  rw [h.base, h.mult]

theorem AgreeOnRead.write (hs : isWritePhase s.ph = true) :
    AgreeOnRead (pollStep P s) (pollStep P t) := by
  have ht : isWritePhase t.ph = true := h.ph ▸ hs
  obtain ⟨r, v, hnext, heq⟩ := pollStep_of_isWritePhase P hs
  obtain ⟨r', v', hnext', heq'⟩ := pollStep_of_isWritePhase P ht
  have hsame : (r, v) = (r', v') := by
    rw [← h.ph, ← getElem?_writesOf_congr P hs h.ed h.eps, hnext] at hnext'
    exact Option.some.inj hnext'
  cases hsame
  obtain ⟨hsmp, hcur, hidx, hed, heps⟩ := live_phaseAfterWrite hs
  rw [heq, heq', ← h.ph]
  exact { h with
    ph := rfl
    tlog := congrArg (· ++ [(r, v)]) h.tlog
    smp := fun hlive => absurd hlive (by simp [hsmp])
    cur := fun hlive => absurd hlive (by simp [hcur])
    idx := fun hlive => absurd hlive (by simp [hidx])
    ed := fun hlive => h.ed (hed hlive)
    eps := fun hlive => h.eps (heps hlive) }

/-- At each phase the step reads registers that are live there alone, and what it makes live it writes. -/
theorem AgreeOnRead.pollStep : AgreeOnRead (pollStep P s) (pollStep P t) := by
  cases hs : s.ph with
  | rdb =>
    have ht : t.ph = .rdb := h.ph ▸ hs
    cases hfused : P.snapshotAtomic with
    | false =>
      rw [pollStep_of_rdb_separate hs hfused, pollStep_of_rdb_separate ht hfused]
      exact { h with ph := rfl, smp := fun _ => h.firstField_eq, cur := nofun, idx := nofun, ed := nofun, eps := nofun }
    | true =>
      rw [pollStep_of_rdb_fused hs hfused, pollStep_of_rdb_fused ht hfused]
      have hcur : s.base ||| s.mult = t.base ||| t.mult := by rw [h.base, h.mult]
      exact { h with ph := rfl, smp := nofun, cur := fun _ => hcur, idx := nofun, ed := nofun, eps := nofun }
  | rdm =>
    have hsmp : s.smp = t.smp := h.smp (by rw [hs]; rfl)
    rw [pollStep_of_rdm P hs, pollStep_of_rdm P (h.ph ▸ hs), hsmp, h.secondField_eq]
    exact { h with ph := rfl, smp := nofun, cur := fun _ => rfl, idx := nofun, ed := nofun, eps := nofun }
  | mir =>
    have hcur : s.cur = t.cur := h.cur (by rw [hs]; rfl)
    rw [pollStep_of_mir P hs, pollStep_of_mir P (h.ph ▸ hs)]
    exact { h with ph := rfl, smp := nofun, cur := fun _ => hcur, idx := nofun, ed := nofun, eps := nofun }
  | cmp =>
    have ht : t.ph = .cmp := h.ph ▸ hs
    have hcur : s.cur = t.cur := h.cur (by rw [hs]; rfl)
    by_cases hkey : s.cur = s.prev
    · rw [pollStep_of_cmp_eq P hs hkey, pollStep_of_cmp_eq P ht (by rw [← hcur, ← h.prev, hkey])]
      exact { h with ph := rfl, smp := nofun, cur := nofun, idx := nofun, ed := nofun, eps := nofun }
    · rw [pollStep_of_cmp_ne P hs hkey, pollStep_of_cmp_ne P ht (by rwa [← hcur, ← h.prev])]
      exact { h with
        ph := rfl, prev := hcur, smp := nofun, cur := fun _ => hcur, idx := fun _ => rfl, ed := nofun, eps := nofun }
  | scan =>
    have hcur : s.cur = t.cur := h.cur (by rw [hs]; rfl)
    have hidx : s.idx = t.idx := h.idx (by rw [hs]; rfl)
    rw [pollStep_of_scan P hs, pollStep_of_scan P (h.ph ▸ hs)]
    obtain ⟨hend, -⟩ | ⟨i, hi, -⟩ := tableIndex_cases s.idx
    · rw [scanEffect_of_idx_eq_twenty P hend, scanEffect_of_idx_eq_twenty P (hidx ▸ hend)]
      exact { h with ph := rfl, smp := nofun, cur := nofun, idx := nofun, ed := nofun, eps := nofun }
    · rw [scanEffect_of_idx_eq P hi.symm, scanEffect_of_idx_eq P (hidx ▸ hi.symm)]
      by_cases hkey : key i = s.cur
      · rw [if_pos hkey, if_pos (hcur ▸ hkey)]
        exact { h with ph := rfl, smp := nofun, cur := nofun, idx := nofun, ed := fun _ => rfl, eps := fun _ => rfl }
      · rw [if_neg hkey, if_neg (hcur ▸ hkey)]
        exact { h with
          ph := rfl, smp := nofun, cur := fun _ => hcur, idx := fun _ => rfl, ed := nofun, eps := nofun }
  | wmoff | wcoff | wper | wca | wcb | wcnt | wmon | wcsel => exact h.write (by rw [hs]; rfl)

end Agreement

/-- Settles O23, by induction on the schedule. -/
theorem unwrittenRegistersAreNeverRead : Obligations.UnwrittenRegistersAreNeverRead := by
  intro P ts
  induction ts with
  | nil => exact fun _ _ h => h
  | cons tok ts ih =>
    intro s t h
    cases tok with
    | edge => exact ih _ _ h.edgeEffect
    | poll => exact ih _ _ h.pollStep

end Sys2Proof.Safety
end

section
/-!
PROOFS. What the block's invariant says of the scan, the running clock, the order of the writes and the quiescent block
(42_poll_lookup.md section 5, 43_timer_write_sequencer.md section 4, 70_reset_and_hazards.md section 3).
-/

namespace Sys2Proof.Safety

open Sys2Proof.Machine

theorem lookup_key (i : Fin 20) : lookup (key i) = some i :=
  lookup_eq_some_iff.mpr ⟨rfl, fun _ hlt heq => absurd (key_injective heq) (Fin.ne_of_lt hlt)⟩

/-- Settles O48: the key looked for is that of an entry the scan has not passed. -/
theorem lookupNeverFailsOnLegalReads : Obligations.LookupNeverFailsOnLegalReads := by
  intro P s h hph
  obtain ⟨i, hkey, hi⟩ := h.exists_key_of_scan hph
  refine ⟨?_, i, hkey ▸ lookup_key i, hi⟩
  intro hend
  rw [hend] at hi
  exact absurd i.isLt (Nat.not_lt.mpr hi)

/-! ### The last write of each register -/

/-- After a complete group of writes the last write of every register is its value in the image (R174). -/
theorem lastWrite_append_entryWrites (P : Params) (r : TReg) (log : List (TReg × Data)) (i : Fin 20) :
    lastWrite r (log ++ entryWrites P i) = some ((entryImage P i).get r) := by
  have group : lastWrite r (entryWrites P i) = some ((entryImage P i).get r) := by cases r <;> rfl
  rw [lastWrite_append, group, Option.some_or]

/-- In a programming in progress whose selector has been cleared, the selector last written is the cleared one. -/
theorem lastWrite_clksel_take_writesOf (P : Params) (log : List (TReg × Data)) (d : Data) (ps : Byte) {n : Nat}
    (hlow : 2 ≤ n) (hhigh : n ≤ 7) : lastWrite .clksel (log ++ (writesOf P d ps).take n) = some 0 := by
  have group : lastWrite .clksel ((writesOf P d ps).take n) = some 0 := by interval_cases n <;> rfl
  rw [lastWrite_append, group, Option.some_or]

theorem writesDone_le (p : Phase) : writesDone p ≤ 7 := by cases p <;> decide

theorem writesDone_eq_one_iff (p : Phase) : writesDone p = 1 ↔ p = .wcoff := by cases p <;> decide

/-- A log of complete groups that writes anything ends in a group. -/
theorem exists_last_group {P : Params} {done : List (Fin 20)} {r : TReg} {v : Data}
    (h : lastWrite r (done.flatMap (entryWrites P)) = some v) :
    ∃ before i, done.flatMap (entryWrites P) = before ++ entryWrites P i := by
  rcases List.eq_nil_or_concat done with rfl | ⟨init, i, rfl⟩
  · cases h
  · exact ⟨init.flatMap (entryWrites P), i, by simp⟩

section RunningClock

variable {P : Params} {s : State} {done : List (Fin 20)} (hlog : LogIs P done s)
include hlog

/-- While the selector is not zero, at most the neutral mode of the programming in progress has been written. -/
theorem writesDone_le_one_of_running {v : Data} (hv : lastWrite .clksel s.tlog = some v) (hne : v ≠ 0) :
    writesDone s.ph ≤ 1 := by
  by_contra hmany
  rw [hlog, lastWrite_clksel_take_writesOf P _ _ _ (by omega) (writesDone_le _)] at hv
  exact hne (Option.some.inj hv).symm

/-- With at most that write made, the last write of every register, but of the mode then, is of a complete group. -/
theorem lastWrite_eq_of_writesDone_le_one (hfew : writesDone s.ph ≤ 1) {r : TReg}
    (hr : s.ph ≠ .wcoff ∨ r ≠ .mode) : lastWrite r s.tlog = lastWrite r (done.flatMap (entryWrites P)) := by
  rw [hlog, lastWrite_append]
  obtain hzero | hone := Nat.le_one_iff_eq_zero_or_eq_one.mp hfew
  · rw [hzero]
    rfl
  · have hmode : .mode ≠ r := (hr.resolve_left (absurd ((writesDone_eq_one_iff _).mp hone))).symm
    have hneutral : lastWrite r [(.mode, modeOff)] = none := by rw [lastWrite_singleton, if_neg hmode]
    rw [hone, writesOf, List.take_succ_cons, List.take_zero, hneutral, Option.none_or]

end RunningClock

/-- Settles O49: a selector that is not zero was written by a complete group, which also wrote the rest last. -/
theorem clockRunsOnlyWithOneWholeEntry : Obligations.ClockRunsOnlyWithOneWholeEntry := by
  intro P s v h hv hne
  obtain ⟨done, hlog, -, -⟩ := h.logged
  have hfew := writesDone_le_one_of_running hlog hv hne
  obtain ⟨before, i, hgroups⟩ :=
    exists_last_group ((lastWrite_eq_of_writesDone_le_one hlog hfew (r := .clksel) (.inr nofun)).symm.trans hv)
  have himage {r : TReg} (hr : s.ph ≠ .wcoff ∨ r ≠ .mode) : s.treg.get r = (entryImage P i).get r := by
    refine h.shadowed r _ ?_
    rw [lastWrite_eq_of_writesDone_le_one hlog hfew hr, hgroups, lastWrite_append_entryWrites]
  have hread : s.treg.clksel = v := h.shadowed .clksel v hv
  have hselector : s.treg.clksel = zextSelector (P.tune i).ps := himage (r := .clksel) (.inr nofun)
  exact ⟨i, hread, hread.symm.trans hselector, himage (r := .period) (.inr nofun),
    himage (r := .cmpa) (.inr nofun), himage (r := .cmpb) (.inr nofun), himage (r := .count) (.inr nofun),
    fun hph => himage (r := .mode) (.inl hph)⟩

/-- Settles O51: the key is not the 0x00 of reset, so the last complete group is that of the key. -/
theorem quiescentTimerMatchesTheKey : Obligations.QuiescentTimerMatchesTheKey := by
  intro P s h ⟨hph, hprev⟩
  obtain ⟨hbase, hmult⟩ := h.legal
  obtain ⟨j, hj⟩ := exists_key_eq_union hbase hmult
  obtain ⟨done, hlog, hlast⟩ := h.exists_groups (by rw [hph]; rfl)
  obtain ⟨-, hzero⟩ | ⟨i, hi, hkey⟩ := hlast (by simp [hph])
  · have nonzero : ∀ j, key j ≠ 0x00 := by decide
    exact absurd (hj.trans (hprev.symm.trans hzero)) (nonzero j)
  · refine ⟨i, by rw [← hprev, ← hkey, lookup_key], TimerRegs.ext_get fun r => h.shadowed r _ ?_⟩
    obtain ⟨init, rfl⟩ := List.getLast?_eq_some_iff.mp hi
    rw [hlog, List.flatMap_append, List.flatMap_singleton, lastWrite_append_entryWrites]

/-! ### The order of the writes -/

/-- Is the write one of a value the clock must not run over: period, compare value, counter or run mode? -/
def LoadsValue (P : Params) (w : TReg × Data) : Prop :=
  w.1 = .period ∨ w.1 = .cmpa ∨ w.1 = .cmpb ∨ w.1 = .count ∨ w = (.mode, P.modeRun)

/-- The write `w` stands between `pre` and `post` as the five steps of a programming order it
(43_timer_write_sequencer.md section 4). -/
def WellOrdered (P : Params) (pre : List (TReg × Data)) (w : TReg × Data) (post : List (TReg × Data)) : Prop :=
  (LoadsValue P w → lastWrite .clksel pre = some 0 ∧ ∃ v, v ≠ 0 ∧ firstWrite .clksel post = some v) ∧
  (w = (.mode, 0) → post.head? = some (.clksel, 0))

theorem firstWrite_append (r : TReg) (a b : List (TReg × Data)) :
    firstWrite r (a ++ b) = (firstWrite r a).or (firstWrite r b) := by
  simp [firstWrite, List.find?_append, Option.map_or]

/-- More writes before or after leave the order as it is. -/
theorem WellOrdered.extend {P : Params} {pre post : List (TReg × Data)} {w : TReg × Data}
    (h : WellOrdered P pre w post) (before after : List (TReg × Data)) :
    WellOrdered P (before ++ pre) w (post ++ after) := by
  obtain ⟨hload, hneutral⟩ := h
  refine ⟨fun hw => ?_, fun hw => ?_⟩
  · obtain ⟨hpre, v, hv, hpost⟩ := hload hw
    exact ⟨by rw [lastWrite_append, hpre, Option.some_or], v, hv, by rw [firstWrite_append, hpost, Option.some_or]⟩
  · rw [List.head?_append, hneutral hw, Option.some_or]

theorem zextSelector_toNat (ps : Byte) : (zextSelector ps).toNat = ps.toNat := by
  rw [zextSelector, BitVec.toNat_setWidth_of_le (by decide)]

theorem zextSelector_ne_zero {ps : Byte} (h : ps ≠ 0) : zextSelector ps ≠ 0 := by
  intro hzero
  refine h (BitVec.eq_of_toNat_eq ?_)
  rw [← zextSelector_toNat, hzero]
  rfl

section Order

variable {P : Params} (hP : P.WellFormed)
include hP

/-- The values are loaded by the third to the seventh write, between the two writes of the selector; the neutral mode
is the first write. -/
theorem wellOrdered_entryWrites {i : Fin 20} {n : Nat} {w : TReg × Data} (h : (entryWrites P i)[n]? = some w) :
    WellOrdered P ((entryWrites P i).take n) w ((entryWrites P i).drop (n + 1)) := by
  obtain ⟨-, -, hW3, hrun⟩ := hP
  have hoff : P.modeRun ≠ 0#32 := hrun
  have hlt : n < 8 := (List.getElem?_eq_some_iff.mp h).1
  refine ⟨fun hload => ?_, fun hneutral => ?_⟩
  · have hmid : 2 ≤ n ∧ n ≤ 6 := by
      interval_cases n <;> cases h <;> simp [LoadsValue, modeOff, hoff.symm] at hload ⊢
    obtain ⟨hlow, hhigh⟩ := hmid
    have hpre := lastWrite_clksel_take_writesOf P [] (P.tune i).div (P.tune i).ps hlow (by omega)
    refine ⟨hpre, zextSelector (P.tune i).ps, zextSelector_ne_zero (hW3 i), ?_⟩
    interval_cases n <;> rfl
  · have hfirst : n = 0 := by
      interval_cases n <;> cases h <;> simp [hoff] at hneutral ⊢
    subst hfirst
    rfl

theorem wellOrdered_flatMap {done : List (Fin 20)} {pre post : List (TReg × Data)} {w : TReg × Data}
    (h : done.flatMap (entryWrites P) = pre ++ w :: post) : WellOrdered P pre w post := by
  induction done generalizing pre with
  | nil => simp at h
  | cons i rest ih =>
    rw [List.flatMap_cons] at h
    obtain ⟨mid, hpre, hrest⟩ | ⟨mid, hgroup, hmid⟩ := List.append_eq_append_iff.mp h
    · rw [hpre]
      simpa using (ih hrest).extend (entryWrites P i) []
    · cases mid with
      | nil =>
        rw [List.append_nil] at hgroup
        simpa [hgroup] using (ih (pre := []) hmid.symm).extend (entryWrites P i) []
      | cons w' after =>
        cases hmid
        have hw : (entryWrites P i)[pre.length]? = some w := by simp [hgroup]
        have hin := wellOrdered_entryWrites hP hw
        rw [hgroup, List.take_left, ← List.drop_drop, List.drop_left] at hin
        simpa using hin.extend [] (rest.flatMap (entryWrites P))

end Order

/-- The log is a beginning of complete groups: what is missing is the rest of the programming in progress. -/
theorem BlockInv.exists_groups_eq_append {P : Params} {s : State} (h : BlockInv P s) :
    ∃ (groups : List (Fin 20)) (rest : List (TReg × Data)),
      groups.flatMap (entryWrites P) = s.tlog ++ rest := by
  obtain ⟨done, hlog, hentry, -⟩ := h.logged
  cases hph : isWritePhase s.ph with
  | true =>
    obtain ⟨i, -, hed, heps⟩ := hentry hph
    refine ⟨done ++ [i], (entryWrites P i).drop (writesDone s.ph), ?_⟩
    rw [hlog, hed, heps, List.append_assoc, ← entryWrites, List.take_append_drop, List.flatMap_append,
      List.flatMap_singleton]
  | false =>
    refine ⟨done, [], ?_⟩
    rw [List.append_nil, (logIs_iff_of_writesDone_eq_zero (writesDone_of_not_write hph)).mp hlog]

/-- Settles O50: the log with the rest of its last group is complete groups, each of them in order. -/
theorem logOrderNeverRunsAStalePair : Obligations.LogOrderNeverRunsAStalePair := by
  intro P s pre post w hP h hsplit
  obtain ⟨groups, rest, hgroups⟩ := h.exists_groups_eq_append
  rw [hsplit, List.append_assoc, List.cons_append] at hgroups
  obtain ⟨hload, hneutral⟩ := wellOrdered_flatMap hP hgroups
  refine ⟨fun hw => ?_, fun hw => ?_⟩
  · obtain ⟨hpre, v, hv, hpost⟩ := hload hw
    refine ⟨hpre, fun v' hv' => ?_⟩
    rw [firstWrite_append, hv', Option.some_or] at hpost
    cases hpost
    exact hv
  · cases post with
    | nil => exact .inl rfl
    | cons w' post' => exact .inr (hneutral hw)

end Sys2Proof.Safety
end

section
/-!
PROOFS. The passes of the loop (42_poll_lookup.md sections 1 and 5, 30_encoding.md section 10): how far the poll agent
is from `RDB`, what stretches of a pass do, and how long a pass is.
-/

namespace Sys2Proof.Machine

open Sys2Proof.Safety

/-! ### How far the poll agent is from `RDB` -/

/-- A bound on the steps of the poll agent up to the next `RDB`; 0 at `RDB` itself (42_poll_lookup.md R148). -/
def stepsLeft (s : State) : Nat :=
  match s.ph with
  | .rdb => 0
  | .rdm => 31
  | .mir => 30
  | .cmp => 29
  | .scan => 28 - s.idx.val
  | p => 8 - writesDone p

theorem stepsLeft_of_isWritePhase {s : State} (h : isWritePhase s.ph = true) :
    stepsLeft s = 8 - writesDone s.ph := by
  unfold stepsLeft
  cases hph : s.ph with
  | rdb | rdm | mir | cmp | scan => simp [hph, isWritePhase] at h
  | wmoff | wcoff | wper | wca | wcb | wcnt | wmon | wcsel => rfl

theorem stepsLeft_of_rdb {s : State} (h : s.ph = .rdb) : stepsLeft s = 0 := by rw [stepsLeft, h]

theorem stepsLeft_of_scan {s : State} (h : s.ph = .scan) : stepsLeft s = 28 - s.idx.val := by rw [stepsLeft, h]

theorem stepsLeft_le (s : State) : stepsLeft s ≤ 31 := by
  unfold stepsLeft
  split <;> omega

theorem PollOutcome.stepsLeft_lt {P : Params} {s t : State} (ho : PollOutcome P s t) (hne : s.ph ≠ .rdb) :
    stepsLeft t < stepsLeft s := by
  cases ho with
  | readFirst hph | readBoth hph => exact absurd hph hne
  | readSecond hph | mirror hph | same hph | changed hph => simp [stepsLeft, hph]
  | exhausted hph hidx => simp [stepsLeft, hph, hidx]
  | hit i hph hidx =>
    rw [stepsLeft_of_scan hph, ← hidx]
    change 8 < 28 - i.val
    omega
  | miss i hph hidx =>
    rw [stepsLeft_of_scan hph, ← hidx]
    change 28 - (i.val + 1) < 28 - i.val
    omega
  | write r v hph =>
    have hle := writesDone_le s.ph
    rw [stepsLeft_of_isWritePhase hph]
    obtain ⟨-, hafter⟩ | ⟨hwrite, hdone⟩ := phaseAfterWrite_cases hph
    · rw [stepsLeft_of_rdb hafter]
      omega
    · rw [stepsLeft_of_isWritePhase hwrite]
      simp only [hdone]
      omega

theorem stepsLeft_pollStep_lt (P : Params) {s : State} (hne : s.ph ≠ .rdb) : stepsLeft (pollStep P s) < stepsLeft s :=
  (pollOutcome_pollStep P s).stepsLeft_lt hne

/-! ### Stretches of a pass -/

theorem runPolls_add (P : Params) (m n : Nat) (s : State) :
    runPolls P (m + n) s = runPolls P n (runPolls P m s) := by
  rw [Nat.add_comm]
  simp only [runPolls_eq_iterate, Function.iterate_add_apply]

/-- `n` steps of the poll agent lead from `s` to `t`, and none of them to `RDB`. -/
structure Leg (P : Params) (s : State) (n : Nat) (t : State) : Prop where
  run : runPolls P n s = t
  inside : ∀ m, 1 ≤ m → m ≤ n → (runPolls P m s).ph ≠ .rdb

section Legs

variable {P : Params} {s t u : State} {m n : Nat}

theorem Leg.refl (P : Params) (s : State) : Leg P s 0 s := ⟨rfl, fun _ h1 h2 => by omega⟩

theorem Leg.one (h : pollStep P s = t) (hph : t.ph ≠ .rdb) : Leg P s 1 t := by
  refine ⟨h, fun m h1 h2 => ?_⟩
  obtain rfl : m = 1 := by omega
  subst h
  exact hph

theorem Leg.trans (h : Leg P s m t) (h' : Leg P t n u) : Leg P s (m + n) u := by
  refine ⟨by rw [runPolls_add, h.run, h'.run], fun k h1 h2 => ?_⟩
  by_cases hk : k ≤ m
  · exact h.inside k h1 hk
  · obtain ⟨j, rfl⟩ := Nat.exists_eq_add_of_lt (Nat.lt_of_not_le hk)
    rw [Nat.add_assoc, runPolls_add, h.run]
    exact h'.inside (j + 1) (by omega) (by omega)

theorem Leg.tail (h : Leg P s (n + 1) t) : (pollStep P s).ph ≠ .rdb ∧ Leg P (pollStep P s) n t :=
  ⟨h.inside 1 (Nat.le_refl 1) (by omega), h.run, fun m _ h2 => h.inside (m + 1) (by omega) (by omega)⟩

theorem Leg.passLengthUpTo_eq (h : Leg P s n t) (hret : (pollStep P t).ph = .rdb) {b : Nat} (hb : n < b) :
    passLengthUpTo P b s = n + 1 := by
  induction n generalizing s b with
  | zero =>
    obtain ⟨b, rfl⟩ := Nat.exists_eq_add_of_lt hb
    cases h.run
    exact if_pos hret
  | succ n ih =>
    obtain ⟨b, rfl⟩ := Nat.exists_eq_add_of_lt hb
    obtain ⟨hph, htail⟩ := h.tail
    have hrest := ih htail (b := n + 1 + b) (by omega)
    rw [passLengthUpTo, if_neg hph, hrest]

/-- A leg and the step back to `RDB` after it are the rest of a pass. -/
theorem Leg.pass (h : Leg P s n t) (hret : pollStep P t = u) (hu : u.ph = .rdb) {m : Nat} (hm : m = n + 1)
    (hbound : m ≤ 32) : passLength P s = m ∧ runPolls P m s = u := by
  subst hm
  refine ⟨h.passLengthUpTo_eq (hret ▸ hu) hbound, ?_⟩
  rw [runPolls_succ', h.run, hret]

end Legs

/-- From every state a leg leads to the step back to `RDB`. -/
theorem exists_leg (P : Params) (s : State) :
    ∃ n t, Leg P s n t ∧ (pollStep P t).ph = .rdb ∧ n ≤ stepsLeft (pollStep P s) := by
  induction hk : stepsLeft (pollStep P s) using Nat.strong_induction_on generalizing s with
  | _ k ih =>
    by_cases hph : (pollStep P s).ph = .rdb
    · exact ⟨0, s, Leg.refl P s, hph, Nat.zero_le k⟩
    · have hless : stepsLeft (pollStep P (pollStep P s)) < k := hk ▸ stepsLeft_pollStep_lt P hph
      obtain ⟨n, t, hleg, hret, hn⟩ := ih _ hless (pollStep P s) rfl
      refine ⟨1 + n, t, (Leg.one rfl hph).trans hleg, hret, ?_⟩
      omega

/-- Settles O39: the rest of a pass is the leg to its last step, and that step. -/
theorem passLengthIsTheLeastReturn : Obligations.PassLengthIsTheLeastReturn := by
  intro P s
  obtain ⟨n, t, hleg, hret, hn⟩ := exists_leg P s
  have hbound : n + 1 ≤ 32 := Nat.succ_le_succ (hn.trans (stepsLeft_le _))
  obtain ⟨hlen, hrun⟩ := hleg.pass rfl hret rfl hbound
  rw [hlen]
  exact ⟨by omega, hbound, hrun ▸ hret, fun m h1 h2 => hleg.inside m h1 (by omega)⟩

/-! ### The scan -/

/-- The probes of a scan before its match, or before the end of the table. -/
theorem leg_misses (P : Params) {s : State} (hph : s.ph = .scan) (hidx : s.idx = 0) {k : Nat} (hk : k < 21)
    (hmiss : ∀ j : Fin 20, j.val < k → key j ≠ s.cur) :
    Leg P s k { s with idx := ⟨k, hk⟩, ph := .scan } := by
  induction k with
  | zero =>
    have hsame : { s with idx := 0, ph := .scan } = s := by cases s; cases hph; cases hidx; rfl
    exact hsame.symm ▸ Leg.refl P s
  | succ k ih =>
    refine (ih (by omega) fun j hj => hmiss j (by omega)).trans (Leg.one ?_ nofun)
    rw [pollStep_of_scan P rfl, scanEffect_of_idx_eq P (i := ⟨k, by omega⟩) rfl,
      if_neg (hmiss _ (Nat.lt_succ_self k))]
    rfl

/-- The probes of a scan up to its match, which latches the entry (R147). -/
theorem leg_scan {P : Params} {s : State} (hph : s.ph = .scan) (hidx : s.idx = 0) {i : Fin 20}
    (hi : lookup s.cur = some i) :
    Leg P s (i.val + 1)
      { s with idx := i.castSucc, ed := (P.tune i).div, eps := (P.tune i).ps, ph := .wmoff } := by
  obtain ⟨hkey, hleast⟩ := lookup_eq_some_iff.mp hi
  refine (leg_misses P hph hidx (by omega) fun j hj => hleast j hj).trans (Leg.one ?_ nofun)
  rw [pollStep_of_scan P rfl, scanEffect_of_idx_eq P (i := i) rfl, if_pos hkey]
  rfl

/-- The probes of a scan of a byte that is no key, and the step that ends it. -/
theorem leg_exhausted {P : Params} {s : State} (hph : s.ph = .scan) (hidx : s.idx = 0) (hnone : lookup s.cur = none) :
    Leg P s 20 { s with idx := 20, ph := .scan } ∧
      pollStep P { s with idx := 20, ph := .scan } = { s with idx := 20, ph := .rdb } :=
  ⟨leg_misses P hph hidx (by omega) fun j _ => lookup_eq_none_iff.mp hnone j, by
    rw [pollStep_of_scan P rfl, scanEffect_of_idx_eq_twenty P rfl]⟩

/-- Settles O37: the probes before the match or the end miss, by induction on their number. -/
theorem scanComputesTheLookup : Obligations.ScanComputesTheLookup := by
  intro P s hph hidx
  refine ⟨fun i hi => (leg_scan hph hidx hi).run, fun hnone => ?_⟩
  obtain ⟨hleg, hend⟩ := leg_exhausted (P := P) hph hidx hnone
  rw [runPolls_succ', hleg.run, hend]

/-! ### The programming -/

/-- Within a programming each step leads to the next write phase. -/
theorem isWritePhase_runPolls (P : Params) {s : State} (hph : isWritePhase s.ph = true) {n : Nat}
    (hn : writesDone s.ph + n ≤ 7) :
    isWritePhase (runPolls P n s).ph = true ∧ writesDone (runPolls P n s).ph = writesDone s.ph + n := by
  induction n with
  | zero => exact ⟨hph, rfl⟩
  | succ n ih =>
    obtain ⟨hwrite, hdone⟩ := ih (by omega)
    obtain ⟨r, v, -, heq⟩ := pollStep_of_isWritePhase P hwrite
    rw [runPolls_succ', heq]
    obtain ⟨hlast, -⟩ | ⟨hnext, hone⟩ := phaseAfterWrite_cases hwrite
    · rw [hlast] at hdone
      change 7 = _ at hdone
      omega
    · exact ⟨hnext, by rw [hone, hdone, Nat.add_assoc]⟩

/-- The eight steps of a programming (R160, R174). -/
theorem runPolls_programming (P : Params) {s : State} (hph : s.ph = .wmoff) :
    runPolls P 8 s =
      { s with ph := .rdb, treg := imageOf P s.ed s.eps, tlog := s.tlog ++ writesOf P s.ed s.eps } := by
  have one_by_one : s.tlog ++ writesOf P s.ed s.eps =
      (writesOf P s.ed s.eps).foldl (fun log w => log ++ [w]) s.tlog :=
    (List.foldl_append_eq_append (l := writesOf P s.ed s.eps) (f := fun w => [w])).symm
  rw [one_by_one]
  cases s
  cases hph
  rfl

theorem leg_programming (P : Params) {s : State} (hph : s.ph = .wmoff) : Leg P s 7 (runPolls P 7 s) := by
  refine ⟨rfl, fun m _ hm hrdb => ?_⟩
  have hstart : writesDone s.ph = 0 := by rw [hph]; rfl
  have hdone : writesDone s.ph + m ≤ 7 := by omega
  obtain ⟨hwrite, -⟩ := isWritePhase_runPolls P (by rw [hph]; rfl) hdone
  rw [hrdb] at hwrite
  cases hwrite

/-! ### One pass -/

/-- The steps a fused read saves (R143). -/
def fusedSaving (P : Params) : Nat := if P.snapshotAtomic = true then 1 else 0

/-- The state at the comparison of a pass that started at `s` with no event in it. -/
def atComparison (P : Params) (s : State) : State :=
  { s with
    smp := if P.snapshotAtomic = true then s.smp else firstField P s
    cur := s.base ||| s.mult, statusOut := s.base ||| s.mult, ph := .cmp }

theorem firstField_or_secondField (P : Params) (s : State) :
    firstField P s ||| secondField P s = s.base ||| s.mult := by
  unfold firstField secondField
  cases P.readOrder
  · rfl
  · exact BitVec.or_comm ..

/-- Reading and mirroring (R141 to R144). -/
theorem leg_comparison (P : Params) {s : State} (hph : s.ph = .rdb) :
    Leg P s (3 - fusedSaving P) (atComparison P s) := by
  have mirror {t : State} (ht : t.ph = .mir) : Leg P t 1 { t with statusOut := t.cur, ph := .cmp } :=
    Leg.one (pollStep_of_mir P ht) nofun
  cases hfused : P.snapshotAtomic with
  | true =>
    have read := Leg.one (pollStep_of_rdb_fused hph hfused) nofun
    simpa [fusedSaving, atComparison, hfused] using read.trans (mirror rfl)
  | false =>
    have first := Leg.one (pollStep_of_rdb_separate hph hfused) nofun
    have second := Leg.one (pollStep_of_rdm P (s := { s with smp := firstField P s, ph := .rdm }) rfl) nofun
    have union : firstField P s ||| secondField P { s with smp := firstField P s, ph := .rdm } = s.base ||| s.mult :=
      firstField_or_secondField P s
    simpa [fusedSaving, atComparison, hfused, union] using (first.trans second).trans (mirror rfl)

end Sys2Proof.Machine
end

section
/-!
PROOFS. What one pass of the loop does (42_poll_lookup.md section 5), the quiescent block (70_reset_and_hazards.md
section 3) and what events among the steps of a pass can do (70_reset_and_hazards.md section 4).
-/

namespace Sys2Proof.Machine

open Sys2Proof.Safety

/-! ### The three outcomes of a pass -/

section Pass

variable {P : Params} {s : State} (hph : s.ph = .rdb)
include hph

/-- A pass that finds the key unchanged (R145). -/
theorem pass_unchanged (hkey : s.base ||| s.mult = s.prev) :
    passLength P s = 4 - fusedSaving P ∧
      runPolls P (4 - fusedSaving P) s = { atComparison P s with ph := .rdb } := by
  have hsave : fusedSaving P ≤ 1 := by unfold fusedSaving; split <;> omega
  exact (leg_comparison P hph).pass (pollStep_of_cmp_eq P rfl hkey) rfl (by omega) (by omega)

/-- The leg of a pass that finds another key, up to the scan (R145). -/
theorem leg_changed (hkey : s.base ||| s.mult ≠ s.prev) :
    Leg P s (4 - fusedSaving P) { atComparison P s with prev := s.base ||| s.mult, idx := 0, ph := .scan } := by
  have hsave : 4 - fusedSaving P = 3 - fusedSaving P + 1 := by unfold fusedSaving; split <;> rfl
  rw [hsave]
  exact (leg_comparison P hph).trans (Leg.one (pollStep_of_cmp_ne P rfl hkey) nofun)

/-- A pass that programs entry `i` (R146, R161). -/
theorem pass_programs (hkey : s.base ||| s.mult ≠ s.prev) {i : Fin 20} (hi : lookup (s.base ||| s.mult) = some i) :
    passLength P s = 13 + i.val - fusedSaving P ∧
      runPolls P (13 + i.val - fusedSaving P) s =
        { atComparison P s with
          prev := s.base ||| s.mult, idx := i.castSucc, ed := (P.tune i).div, eps := (P.tune i).ps
          treg := entryImage P i, tlog := s.tlog ++ entryWrites P i, ph := .rdb } := by
  have hsave : fusedSaving P ≤ 1 := by unfold fusedSaving; split <;> omega
  have scan := (leg_changed (P := P) hph hkey).trans (leg_scan rfl rfl hi)
  have whole := scan.trans (leg_programming P rfl)
  refine whole.pass ?_ rfl (by omega) (by omega)
  rw [← runPolls_succ', runPolls_programming P rfl]
  rfl

/-- A pass that finds a changed byte that is no key (R146). -/
theorem pass_not_found (hkey : s.base ||| s.mult ≠ s.prev) (hnone : lookup (s.base ||| s.mult) = none) :
    passLength P s = 25 - fusedSaving P ∧
      runPolls P (25 - fusedSaving P) s =
        { atComparison P s with prev := s.base ||| s.mult, idx := 20, ph := .rdb } := by
  have hsave : fusedSaving P ≤ 1 := by unfold fusedSaving; split <;> omega
  have changed := leg_changed (P := P) hph hkey
  obtain ⟨scan, hend⟩ := leg_exhausted (P := P)
    (s := { atComparison P s with prev := s.base ||| s.mult, idx := 0, ph := .scan }) rfl rfl hnone
  exact (changed.trans scan).pass hend rfl (by omega) (by omega)

end Pass

/-- Settles O38: the three outcomes; the phase they end at is the `RDB` the pass started at. -/
theorem onePassOfTheLoop : Obligations.OnePassOfTheLoop := by
  intro P s hph
  cases s
  cases hph
  exact ⟨pass_unchanged rfl, fun hkey _ hi => pass_programs rfl hkey hi, pass_not_found rfl⟩

/-- Settles O2: the key of reset is that of entry 0, and `prev` is no key; the machine has separate reads, `base`
first. -/
theorem firstPassAfterResetProgramsEntryZero : Obligations.FirstPassAfterResetProgramsEntryZero := by
  obtain ⟨-, hrun⟩ := pass_programs (P := params) (s := State.reset) rfl (by decide) (i := 0) (by decide)
  exact hrun

/-! ### The quiescent block -/

/-- A block at work on a pass that will find the key unchanged: what it has read so far is the key in `prev`. -/
def Settled (P : Params) (s : State) : Prop :=
  s.prev = s.base ||| s.mult ∧
    match s.ph with
    | .rdb => True
    | .rdm => s.smp = firstField P s
    | .mir | .cmp => s.cur = s.prev
    | _ => False

theorem Settled.pollStep {P : Params} {s : State} (h : Settled P s) :
    Settled P (pollStep P s) ∧ (pollStep P s).tlog = s.tlog ∧ (pollStep P s).treg = s.treg ∧
      (pollStep P s).prev = s.prev := by
  obtain ⟨hprev, hread⟩ := h
  cases hph : s.ph with
  | rdb =>
    cases hfused : P.snapshotAtomic with
    | false => rw [pollStep_of_rdb_separate hph hfused]; exact ⟨⟨hprev, rfl⟩, rfl, rfl, rfl⟩
    | true => rw [pollStep_of_rdb_fused hph hfused]; exact ⟨⟨hprev, hprev.symm⟩, rfl, rfl, rfl⟩
  | rdm =>
    rw [hph] at hread
    have hunion : s.smp ||| secondField P s = s.prev := by rw [hread, firstField_or_secondField, hprev]
    rw [pollStep_of_rdm P hph]
    exact ⟨⟨hprev, hunion⟩, rfl, rfl, rfl⟩
  | mir =>
    rw [hph] at hread
    rw [pollStep_of_mir P hph]
    exact ⟨⟨hprev, hread⟩, rfl, rfl, rfl⟩
  | cmp =>
    rw [hph] at hread
    rw [pollStep_of_cmp_eq P hph hread]
    exact ⟨⟨hprev, trivial⟩, rfl, rfl, rfl⟩
  | scan | wmoff | wcoff | wper | wca | wcb | wcnt | wmon | wcsel =>
    rw [hph] at hread
    exact hread.elim

theorem Settled.runPolls {P : Params} {s : State} (h : Settled P s) (n : Nat) :
    Settled P (runPolls P n s) ∧ (runPolls P n s).tlog = s.tlog ∧ (runPolls P n s).treg = s.treg ∧
      (runPolls P n s).prev = s.prev := by
  induction n with
  | zero => exact ⟨h, rfl, rfl, rfl⟩
  | succ n ih =>
    obtain ⟨hn, htlog, htreg, hprev⟩ := ih
    obtain ⟨hn', htlog', htreg', hprev'⟩ := hn.pollStep
    rw [runPolls_succ']
    exact ⟨hn', htlog'.trans htlog, htreg'.trans htreg, hprev'.trans hprev⟩

/-- Settles O41: a quiescent block is settled at the start of a pass; the key stays what `prev` says. -/
theorem quiescentBlockStaysSilent : Obligations.QuiescentBlockStaysSilent := by
  intro P s n ⟨hph, hprev⟩
  have start : Settled P s := ⟨hprev, by rw [hph]; trivial⟩
  obtain ⟨⟨hkey, -⟩, htlog, htreg, hprev'⟩ := start.runPolls n
  exact ⟨htlog, htreg, hprev', by rw [← hkey, hprev', hprev]⟩

/-- A pass that starts at `RDB` ends in a quiescent point, whatever it finds. -/
theorem quiescent_of_pass (P : Params) {s : State} (hph : s.ph = .rdb) :
    Quiescent (runPolls P (passLength P s) s) := by
  by_cases hkey : s.base ||| s.mult = s.prev
  · obtain ⟨hlen, hrun⟩ := pass_unchanged (P := P) hph hkey
    rw [hlen, hrun]
    exact ⟨rfl, hkey.symm⟩
  · cases hi : lookup (s.base ||| s.mult) with
    | some i =>
      obtain ⟨hlen, hrun⟩ := pass_programs (P := P) hph hkey hi
      rw [hlen, hrun]
      exact ⟨rfl, rfl⟩
    | none =>
      obtain ⟨hlen, hrun⟩ := pass_not_found (P := P) hph hkey hi
      rw [hlen, hrun]
      exact ⟨rfl, rfl⟩

/-- Settles O42: the first pass ends at `RDB`, so the second is a whole one. -/
theorem twoPassesReachQuiescence : Obligations.TwoPassesReachQuiescence := by
  intro P s
  obtain ⟨-, -, hph, -⟩ := passLengthIsTheLeastReturn P s
  exact quiescent_of_pass P hph

/-- Settles O43: 40 events give the quiescent state back but for its counters. -/
theorem twentyAdvancesLookLikeNone : Obligations.TwentyAdvancesLookLikeNone := by
  intro P s n hlegal hquiet
  rw [fortyEventsReturnTheState P s hlegal]
  obtain ⟨htlog, -⟩ := quiescentBlockStaysSilent P { s with nedge := s.nedge + 40, nadv := s.nadv + 20 } n hquiet
  exact htlog

/-! ### Events among the steps of a pass -/

/-- Steps away from the reads can be moved past an event. -/
theorem runPolls_edgeEffect (P : Params) {n : Nat} {s : State}
    (hread : ∀ m < n, (runPolls P m s).ph ≠ .rdb ∧ (runPolls P m s).ph ≠ .rdm) :
    runPolls P n (edgeEffect s) = edgeEffect (runPolls P n s) := by
  induction n with
  | zero => rfl
  | succ n ih =>
    obtain ⟨hrdb, hrdm⟩ := hread n (Nat.lt_succ_self n)
    rw [runPolls_succ', runPolls_succ', ih fun m hm => hread m (Nat.lt_succ_of_lt hm)]
    exact eventsCommuteWithNonReadingSteps P _ hrdb hrdm

/-- Under any schedule whose poll-agent steps are away from the reads, all of these can be made before the events. -/
theorem runTokens_eq_runEdges_runPolls (P : Params) {ts : List Token} {s : State}
    (hread : ∀ m < ts.count .poll, (runPolls P m s).ph ≠ .rdb ∧ (runPolls P m s).ph ≠ .rdm) :
    runTokens P ts s = runEdges P (ts.count .edge) (runPolls P (ts.count .poll) s) := by
  induction ts generalizing s with
  | nil => rfl
  | cons tok ts ih =>
    cases tok with
    | edge =>
      have hcount : (Token.edge :: ts).count .poll = ts.count .poll := List.count_cons_of_ne (by decide)
      rw [hcount] at hread ⊢
      have hpast : ∀ m < ts.count .poll,
          (runPolls P m (edgeEffect s)).ph ≠ .rdb ∧ (runPolls P m (edgeEffect s)).ph ≠ .rdm := by
        intro m hm
        rw [runPolls_edgeEffect P fun k hk => hread k (hk.trans hm), edgeEffect_ph]
        exact hread m hm
      rw [List.count_cons_self, runEdges_succ, ← runPolls_edgeEffect P hread]
      exact ih hpast
    | poll =>
      have hcount : (Token.poll :: ts).count .edge = ts.count .edge := List.count_cons_of_ne (by decide)
      rw [hcount, List.count_cons_self, runPolls_succ]
      rw [List.count_cons_self] at hread
      exact ih fun m hm => hread (m + 1) (Nat.succ_lt_succ hm)

/-- Events neither read nor write the phase, the shadows and the log. -/
theorem runEdges_withProgress (P : Params) (n : Nat) (s : State) (p : Phase) (t : TimerRegs)
    (log : List (TReg × Data)) :
    runEdges P n { s with ph := p, treg := t, tlog := log } =
      { runEdges P n s with ph := p, treg := t, tlog := log } := by
  induction n generalizing s with
  | zero => rfl
  | succ n ih =>
    have one : edgeEffect { s with ph := p, treg := t, tlog := log } =
        { edgeEffect s with ph := p, treg := t, tlog := log } := by simp only [edgeEffect_eq]
    rw [runEdges_succ, runEdges_succ, one, ih]

/-- Settles O40: the eight steps stand in write phases, so the events can all be made after them. -/
theorem programmingRunsThroughEvents : Obligations.ProgrammingRunsThroughEvents := by
  intro P ts s hph hcount
  have away : ∀ m < ts.count .poll, (runPolls P m s).ph ≠ .rdb ∧ (runPolls P m s).ph ≠ .rdm := by
    intro m hm
    have hstart : writesDone s.ph = 0 := by rw [hph]; rfl
    have hdone : writesDone s.ph + m ≤ 7 := by omega
    obtain ⟨hwrite, -⟩ := isWritePhase_runPolls P (by rw [hph]; rfl) hdone
    constructor <;> intro heq <;> rw [heq] at hwrite <;> cases hwrite
  rw [runTokens_eq_runEdges_runPolls P away, hcount, runPolls_programming P hph]
  exact runEdges_withProgress P _ s _ _ _

/-- Events take the shared registers as many steps along the cycle as they count advances, and leave the latch. -/
theorem runEdges_atCount (P : Params) (n : Nat) {k : Nat} {s : State} (hk : AtCount k s) :
    ∃ j, AtCount (k + j) (runEdges P n s) ∧ (runEdges P n s).nadv = s.nadv + j ∧
      (runEdges P n s).ph = s.ph ∧ (runEdges P n s).smp = s.smp := by
  refine ⟨advancesOf s.tog n, ?_⟩
  rw [runEdges_eq_iterate, edgeEffect_iterate_eq]
  refine ⟨hk.advance_iterate _, advanceBase_iterate_nadv _ s, ?_, ?_⟩ <;> rw [advanceBase_iterate_eq]

/-- With events between the two reads the union is of the first field before them and the second field after. -/
theorem torn_read (P : Params) {s : State} {k : Nat} (n : Nat) (hsep : P.snapshotAtomic = false)
    (hph : s.ph = .rdb) (hk : AtCount k s) :
    ∃ j, (runEdges P n (pollStep P s)).nadv - s.nadv = j ∧ AtCount (k + j) (runEdges P n (pollStep P s)) ∧
      (pollStep P (runEdges P n (pollStep P s))).cur =
        firstField P s ||| secondField P (runEdges P n (pollStep P s)) := by
  rw [pollStep_of_rdb_separate hph hsep]
  obtain ⟨j, hcount, hnadv, hrdm, hsmp⟩ :=
    runEdges_atCount P n (s := { s with smp := firstField P s, ph := .rdm }) hk
  refine ⟨j, by rw [hnadv, Nat.add_sub_cancel_left], hcount, ?_⟩
  rw [pollStep_of_rdm P hrdm, hsmp]

/-- Settles O44: the union of legal fields is a key, and the two fields can be read back from it. -/
theorem tornReadIsAlwaysAKey : Obligations.TornReadIsAlwaysAKey := by
  intro P s k n hsep hph hk
  obtain ⟨j, hj, hcount, hcur⟩ := torn_read P n hsep hph hk
  simp only [hj, hcur]
  generalize runEdges P n (pollStep P s) = e at hcount
  obtain ⟨hbase, hmult⟩ := hk.legalFields
  obtain ⟨hbase', hmult'⟩ := hcount.legalFields
  unfold firstField secondField
  cases P.readOrder with
  | baseFirst =>
    refine ⟨by rw [hk.1, hcount.2], exists_key_eq_union hbase hmult', ?_, ?_⟩
    · simp [union_eq_union_iff hbase hmult' hbase hmult]
    · simp [union_eq_union_iff hbase hmult' hbase' hmult', eq_comm]
  | multFirst =>
    simp only [BitVec.or_comm s.mult e.base]
    refine ⟨by rw [hk.2, hcount.1, BitVec.or_comm], exists_key_eq_union hbase' hmult, ?_, ?_⟩
    · simp [union_eq_union_iff hbase' hmult hbase hmult]
    · simp [union_eq_union_iff hbase' hmult hbase' hmult', eq_comm]

end Sys2Proof.Machine
end

section
/-!
PROOFS. The step, the runs it makes under a schedule, finite or infinite, and the phases it moves through
(00_scope.md section 5, 10_state.md section 3, 70_reset_and_hazards.md section 3).
-/

namespace Sys2Proof.Machine

open Sys2Proof.Safety

/-! ### One step -/

/-- The operation the agent a token names runs next. -/
def tokenInstr (s : State) : Token → Instr
  | .edge => .edge
  | .poll => phaseInstr s.ph

/-- The word that selects that operation: the strobe (R86) or the phase code (R84). -/
def tokenWord (s : State) : Token → Word
  | .edge => .ev 1
  | .poll => .ph (phaseCode s.ph)

theorem fetch_eq (P : Params) (s : State) : fetch P s = tokenWord s (slotToken P s) := by
  unfold fetch
  cases slotToken P s <;> rfl

/-- Settles O18: the word fetched decodes to the operation of the token in the slot. -/
theorem stepRunsTheDecodedOperation : Obligations.StepRunsTheDecodedOperation := by
  have runs (s : State) (i : Instr) (h : decode (fetch params s) = .ok i) : step s = exec i s.popSlot := by
    rw [step, h]
  have bySlot (s : State) {t : Token} {next : State} (h : slotToken params s = t ∧ s.popSlot = next) :
      fetch params s = tokenWord s t ∧ step s = exec (tokenInstr s t) next := by
    obtain ⟨rfl, rfl⟩ := h
    refine ⟨fetch_eq params s, runs s _ ((decode_fetch params s).trans ?_)⟩
    cases slotToken params s <;> rfl
  refine ⟨runs, fun s _ h => bySlot s (slotToken_of_cons params h),
    fun s _ h => bySlot s (slotToken_of_cons params h), fun s h => ?_⟩
  obtain ⟨hfetch, hstep⟩ := bySlot s (slotToken_of_nil params h)
  rw [hfetch, hstep]
  cases params.schedule s.slot <;> exact ⟨rfl, rfl⟩

/-- The moves of the phase in one step of the poll agent with separate reads (R28). -/
def phaseMoves : List (Phase × Phase) :=
  [(.rdb, .rdm), (.rdm, .mir), (.mir, .cmp), (.cmp, .rdb), (.cmp, .scan), (.scan, .scan), (.scan, .rdb),
    (.scan, .wmoff), (.wmoff, .wcoff), (.wcoff, .wper), (.wper, .wca), (.wca, .wcb), (.wcb, .wcnt),
    (.wcnt, .wmon), (.wmon, .wcsel), (.wcsel, .rdb)]

theorem PollOutcome.phases {P : Params} {s t : State} (ho : PollOutcome P s t) (hsep : P.snapshotAtomic = false) :
    (s.ph, t.ph) ∈ phaseMoves := by
  cases ho with
  | readBoth hph hfused => rw [hsep] at hfused; cases hfused
  | readFirst hph | readSecond hph | mirror hph | same hph | changed hph | exhausted hph | hit _ hph
  | miss _ hph => simp [phaseMoves, hph]
  | write r v hph =>
    dsimp only
    revert hph
    cases s.ph <;> decide

/-- Settles O20: the slot's agent steps, and only a step of the poll agent moves the phase. -/
theorem phaseMovesOnlyAsListed : Obligations.PhaseMovesOnlyAsListed := by
  intro s
  refine ⟨stepWith params s, step_eq_stepWith s, fun htok => ?_, fun htok => ?_⟩ <;> rw [stepWith, htok]
  · exact edgeEffect_ph s.popSlot
  · exact (pollOutcome_pollStep params s.popSlot).phases rfl

/-! ### Runs of the machine -/

theorem run_eq_iterate (n : Nat) (s : State) :
    Host.Core.run Sys2Proof.core n s = .next ((stepWith params)^[n] s) := by
  induction n generalizing s with
  | zero => rfl
  | succ n ih => rw [run_succ, ih, Function.iterate_succ_apply]

@[simp] theorem tokenStep_sched (P : Params) (s : State) (t : Token) : (tokenStep P s t).sched = s.sched :=
  (congrArg State.sched (tokenStep_slots P s t s.sched s.slot) :)

@[simp] theorem tokenStep_slot (P : Params) (s : State) (t : Token) : (tokenStep P s t).slot = s.slot :=
  (congrArg State.slot (tokenStep_slots P s t s.sched s.slot) :)

theorem tokenStep_withSched (P : Params) (s : State) (t : Token) (ts : List Token) :
    tokenStep P { s with sched := ts } t = { tokenStep P s t with sched := ts } := by
  simpa only [tokenStep_slot] using tokenStep_slots P s t ts s.slot

theorem tokenStep_withSlot (P : Params) (s : State) (t : Token) (n : Nat) :
    tokenStep P { s with slot := n } t = { tokenStep P s t with slot := n } := by
  simpa only [tokenStep_sched] using tokenStep_slots P s t s.sched n

theorem stepWith_of_cons (P : Params) {s : State} {t : Token} {rest : List Token} (h : s.sched = t :: rest) :
    stepWith P s = tokenStep P { s with sched := rest } t := by
  obtain ⟨htok, hpop⟩ := slotToken_of_cons P h
  rw [stepWith, htok, hpop]

theorem stepWith_of_nil (P : Params) {s : State} (h : s.sched = []) :
    stepWith P s = tokenStep P { s with slot := s.slot + 1 } (P.schedule s.slot) := by
  obtain ⟨htok, hpop⟩ := slotToken_of_nil P h
  rw [stepWith, htok, hpop]

/-- The steps over the tokens a state holds are the run under those tokens. -/
theorem stepWith_iterate_of_append (P : Params) (ts rest : List Token) (s : State) :
    (stepWith P)^[ts.length] { s with sched := ts ++ rest } = runTokens P ts { s with sched := rest } := by
  induction ts generalizing s with
  | nil => rfl
  | cons t ts ih =>
    have first : stepWith P { s with sched := t :: ts ++ rest } = { tokenStep P s t with sched := ts ++ rest } :=
      (stepWith_of_cons P rfl).trans (tokenStep_withSched P s t (ts ++ rest))
    rw [List.length_cons, Function.iterate_succ_apply, first, ih, runTokens_cons,
      tokenStep_withSched P s t rest]

/-- Settles O19: the host's run is the iterated step, and a step takes the first token. -/
theorem runIsTheInterleavingOfTheSchedule : Obligations.RunIsTheInterleavingOfTheSchedule := by
  intro ts rest s
  rw [run_eq_iterate, stepWith_iterate_of_append]

/-! ### Infinite runs -/

theorem runStream_sched (P : Params) (ts : Nat → Token) (s : State) (n : Nat) :
    (runStream P ts s n).sched = s.sched := by
  induction n with
  | zero => rfl
  | succ n ih => rw [runStream_succ, tokenStep_sched, ih]

theorem runStream_slot (P : Params) (ts : Nat → Token) (s : State) (n : Nat) :
    (runStream P ts s n).slot = s.slot := by
  induction n with
  | zero => rfl
  | succ n ih => rw [runStream_succ, tokenStep_slot, ih]

/-- Past the tokens the state holds, the steps are those the schedule of the parameters names, and each is counted. -/
theorem stepWith_iterate_of_nil (P : Params) {s : State} (h : s.sched = []) (n : Nat) :
    (stepWith P)^[n] s =
      { runStream P (fun k => P.schedule (s.slot + k)) s n with slot := s.slot + n } := by
  induction n with
  | zero => rfl
  | succ n ih =>
    rw [Function.iterate_succ_apply', ih, runStream_succ]
    generalize hr : runStream P (fun k => P.schedule (s.slot + k)) s n = r
    have hnil : r.sched = [] := hr ▸ (runStream_sched P _ s n).trans h
    exact (stepWith_of_nil P (s := { r with slot := s.slot + n }) hnil).trans
      (tokenStep_withSlot P r (P.schedule (s.slot + n)) (s.slot + n + 1))

/-- The steps of the agents do not depend on the schedule of the parameters. -/
theorem tokenStep_withSchedule (P : Params) (ts : Nat → Token) (s : State) (t : Token) :
    tokenStep { P with schedule := ts } s t = tokenStep P s t := rfl

theorem eq_runStream_of_follows {P : Params} {ts : Nat → Token} {run : Nat → State} (h : Follows P ts run)
    (n : Nat) : run n = runStream P ts (run 0) n := by
  induction n with
  | zero => rfl
  | succ n ih => rw [h n, runStream_succ, ← ih]

/-- From reset the step makes the run its schedule names. -/
theorem stepWith_iterate_resetWith (P : Params) (n : Nat) :
    (stepWith P)^[n] (State.resetWith P) = { runStream P P.schedule (State.resetWith P) n with slot := n } := by
  have fromReset : (State.resetWith P).slot = 0 := rfl
  simpa only [fromReset, Nat.zero_add] using stepWith_iterate_of_nil P (s := State.resetWith P) rfl n

theorem runStream_withSchedule (P : Params) (ts us : Nat → Token) (s : State) (n : Nat) :
    runStream { P with schedule := ts } us s n = runStream P us s n := by
  induction n with
  | zero => rfl
  | succ n ih => rw [runStream_succ, runStream_succ, ih, tokenStep_withSchedule]

/-- Settles O57: the machine's steps are those of `runStream`, and so are the states of an infinite run. -/
theorem infiniteRunsAreTheScheduledRuns : Obligations.InfiniteRunsAreTheScheduledRuns := by
  refine ⟨fun n s h => ?_, fun P ts run hrun n => ?_, fun P hfair => ?_⟩
  · rw [run_eq_iterate, stepWith_iterate_of_nil params h]
  · rw [eq_runStream_of_follows hrun.follows, hrun.start, ← runStream_withSchedule P ts]
    exact stepWith_iterate_resetWith { P with schedule := ts } n
  · have states (n : Nat) : { (stepWith P)^[n] (State.resetWith P) with slot := 0 } =
        runStream P P.schedule (State.resetWith P) n := by
      have hslot : (runStream P P.schedule (State.resetWith P) n).slot = 0 := runStream_slot ..
      rw [stepWith_iterate_resetWith, ← hslot]
    simp only [states]
    exact ⟨rfl, fun _ => rfl, hfair⟩

section Fairness

variable {P : Params} {ts : Nat → Token} {run : Nat → State} (hfair : Fair ts) (hrun : Follows P ts run)
include hfair hrun

/-- After every step of a fair run there is a step of the poll agent at the phase where that step found it: up to it
there are only events. -/
theorem exists_next_poll (n : Nat) :
    ∃ m, n ≤ m ∧ ts m = .poll ∧ (run m).ph = (run n).ph ∧ stepsLeft (run m) = stepsLeft (run n) := by
  obtain ⟨k, hk, hpoll⟩ := hfair n
  obtain ⟨d, rfl⟩ := Nat.exists_eq_add_of_le hk
  clear hk
  induction d generalizing n with
  | zero => exact ⟨n, Nat.le_refl n, hpoll, rfl, rfl⟩
  | succ d ih =>
    cases htok : ts n with
    | poll => exact ⟨n, Nat.le_refl n, htok, rfl, rfl⟩
    | edge =>
      have hevent : run (n + 1) = edgeEffect (run n) := by rw [hrun n, htok]; rfl
      obtain ⟨m, hm, hpoll', hph, hleft⟩ := ih (n + 1) (by rwa [Nat.add_right_comm, Nat.add_assoc])
      refine ⟨m, by omega, hpoll', ?_, ?_⟩
      · rw [hph, hevent, edgeEffect_ph]
      · rw [hleft, hevent]
        simp only [stepsLeft, edgeEffect_ph, edgeEffect_idx]

/-- Each step of the poll agent brings the next pass nearer. -/
theorem exists_pass_start (n : Nat) : ∃ m, n ≤ m ∧ ts m = .poll ∧ (run m).ph = .rdb := by
  induction hleft : stepsLeft (run n) using Nat.strong_induction_on generalizing n with
  | _ k ih =>
    obtain ⟨m, hm, hpoll, -, hsame⟩ := exists_next_poll hfair hrun n
    by_cases hph : (run m).ph = .rdb
    · exact ⟨m, hm, hpoll, hph⟩
    · have hstep : run (m + 1) = pollStep P (run m) := by rw [hrun m, hpoll]; rfl
      have hless : stepsLeft (run (m + 1)) < k := by
        rw [hstep, ← hleft, ← hsame]
        exact stepsLeft_pollStep_lt P hph
      obtain ⟨m', hm', hstart⟩ := ih _ hless (m + 1) rfl
      exact ⟨m', by omega, hstart⟩

end Fairness

/-- Settles O58, by induction on the bound on the steps left to the next `RDB`. -/
theorem fairRunsStartPassesForEver : Obligations.FairRunsStartPassesForEver :=
  fun _ _ _ hfair hrun n => exists_pass_start hfair hrun n

end Sys2Proof.Machine
end

section
/-!
PROOFS. The encodings of the operations, the table index and the schedule (30_encoding.md sections 3, 4 and 10), and the
keys as bytes (30_encoding.md section 2).
-/

namespace Sys2Proof.Machine

/-! ### Operations -/

/-- Settles O24: each word is looked up in the table of codes. -/
theorem operationWordsDecodeAsTabled : Obligations.OperationWordsDecodeAsTabled :=
  ⟨rfl, rfl, rfl, rfl, rfl, rfl, rfl, rfl, rfl, rfl, rfl, rfl, rfl, rfl⟩

/-- The table of R85 read in both directions. -/
theorem phaseOfCode_eq_some_iff {c : BitVec 4} {p : Phase} : phaseOfCode c = some p ↔ c = phaseCode p := by
  cases p <;> revert c <;> decide

theorem encode_phaseInstr (p : Phase) : encode (phaseInstr p) = .ph (phaseCode p) := by cases p <;> rfl

theorem decode_encode (i : Instr) : decode (encode i) = .ok i := by cases i <;> rfl

/-- What a word decodes to is encoded by that word: the strobe 1 by `EDGE`, a code of the table by its phase. -/
theorem eq_encode_of_decode {w : Word} {i : Instr} (h : decode w = .ok i) : w = encode i := by
  cases w with
  | ev strobe =>
    by_cases hstrobe : strobe = 1
    · simp only [decode, if_pos hstrobe, Except.ok.injEq] at h
      rw [hstrobe, ← h]
      rfl
    · rw [decode, if_neg hstrobe] at h
      cases h
  | ph code =>
    cases hphase : phaseOfCode code with
    | none => simp [decode, hphase] at h
    | some p =>
      simp only [decode, hphase, Except.ok.injEq] at h
      rw [← h, encode_phaseInstr, ← phaseOfCode_eq_some_iff.mp hphase]

/-- Settles O25: the encoder is the table the decoder looks up, in the other direction. -/
theorem decodeInvertsEncode : Obligations.DecodeInvertsEncode :=
  fun _ i => ⟨eq_encode_of_decode, fun h => h ▸ decode_encode i⟩

/-! ### The schedule and the table index -/

theorem tokenOfBit_tokenBit (t : Token) : tokenOfBit (tokenBit t) = t := by cases t <;> rfl

theorem tokenBit_tokenOfBit (b : Bool) : tokenBit (tokenOfBit b) = b := by cases b <;> rfl

/-- Settles O28: token by token. -/
theorem scheduleBitsRoundTrip : Obligations.ScheduleBitsRoundTrip :=
  ⟨fun ts => by simp [encodeSchedule, decodeSchedule, Function.comp_def, tokenOfBit_tokenBit],
    fun bits => by simp [encodeSchedule, decodeSchedule, Function.comp_def, tokenBit_tokenOfBit]⟩

theorem indexBits_toNat (idx : Fin 21) : (indexBits idx).toNat = idx.val := by
  rw [indexBits, BitVec.toNat_ofNat]
  exact Nat.mod_eq_of_lt (by omega)

theorem indexOfBits_eq_none_iff (bits : BitVec 5) : indexOfBits bits = none ↔ 21 ≤ bits.toNat := by
  simp [indexOfBits]

theorem indexOfBits_eq_some_iff {bits : BitVec 5} {idx : Fin 21} :
    indexOfBits bits = some idx ↔ bits.toNat = idx.val := by
  simp [indexOfBits, Fin.ext_iff]
  omega

/-- Settles O56: bits and index agree exactly when they are the same number. -/
theorem tableIndexRoundTrips : Obligations.TableIndexRoundTrips := by
  intro bits idx
  refine ⟨?_, indexBits_toNat idx, indexOfBits_eq_none_iff bits⟩
  rw [indexOfBits_eq_some_iff, BitVec.toNat_eq, indexBits_toNat]

/-! ### The keys -/

/-- Settles O29: the enumeration is computed. -/
theorem keysAreTheTabledBytes : Obligations.KeysAreTheTabledBytes := by
  unfold Obligations.KeysAreTheTabledBytes
  decide

/-- The field with bit `b` set, for b in 0..4 (R81). -/
def baseBits (b : Fin 5) : BitVec 5 := 1 <<< b.val

/-- The field that is zero for 0 and has bit `m - 1` set for m in 1..3 (R81). -/
def multBits (m : Fin 4) : BitVec 3 := if m = 0 then 0 else 1 <<< (m.val - 1)

theorem legalBaseField_iff (f : BitVec 5) : legalBaseField f = true ↔ ∃ b, f = baseBits b := by
  revert f
  decide

theorem legalMultField_iff (f : BitVec 3) : legalMultField f = true ↔ ∃ m, f = multBits m := by
  revert f
  decide

/-- The key of entry i has its base position in bits 7:3 and its multiplier value in bits 2:0. -/
theorem key_eq_append : ∀ i : Fin 20,
    key i = baseBits ⟨i.val % 5, by omega⟩ ++ multBits ⟨i.val / 5, by omega⟩ := by
  decide

theorem eq_append_fields (c : Byte) : c = c.extractLsb' 3 5 ++ c.extractLsb' 0 3 :=
  (BitVec.extractLsb'_append_extractLsb' (w := 5) (len := 3)).symm

/-- A byte is a legal CompositeState exactly when it is a key: of the entry its two fields number. -/
theorem legalComposite_iff (c : Byte) : legalComposite c = true ↔ ∃ i, key i = c := by
  rw [legalComposite, Bool.and_eq_true, legalBaseField_iff, legalMultField_iff]
  constructor
  · rintro ⟨⟨b, hb⟩, ⟨m, hm⟩⟩
    have hmod : (5 * m.val + b.val) % 5 = b.val := by omega
    have hdiv : (5 * m.val + b.val) / 5 = m.val := by omega
    refine ⟨⟨5 * m.val + b.val, by omega⟩, ?_⟩
    rw [key_eq_append, eq_append_fields c, hb, hm]
    simp only [hmod, hdiv]
  · rintro ⟨i, rfl⟩
    rw [key_eq_append]
    exact ⟨⟨_, BitVec.extractLsb'_append_eq_left⟩, ⟨_, BitVec.extractLsb'_append_eq_right⟩⟩

/-- Settles O30: an entry is determined by its fields, and the legal fields are those of the entries. -/
theorem keysAreTheLegalComposites : Obligations.KeysAreTheLegalComposites :=
  ⟨fun _ _ h => key_injective h, legalComposite_iff⟩

end Sys2Proof.Machine
end

section
/-!
PROOFS. Reset, the two shared reads, and the bounds on the values written to the timer (70_reset_and_hazards.md section
1, 42_poll_lookup.md section 2, 43_timer_write_sequencer.md section 2, 30_encoding.md section 6).
-/

namespace Sys2Proof.Machine

open Sys2Proof.Safety

/-- Settles O1: the fields of the reset state. -/
theorem resetLeavesTheListedValues : Obligations.ResetLeavesTheListedValues :=
  ⟨rfl, rfl, rfl, rfl, rfl, rfl, rfl, rfl⟩

theorem firstField_eq_ite (P : Params) (s : State) :
    firstField P s = if P.readOrder = .baseFirst then s.base else s.mult := by
  unfold firstField
  cases P.readOrder <;> rfl

theorem secondField_eq_ite (P : Params) (s : State) :
    secondField P s = if P.readOrder = .baseFirst then s.mult else s.base := by
  unfold secondField
  cases P.readOrder <;> rfl

/-- Settles O4: the branch of `RDB` with separate reads; the machine's setting has them, `base` first. -/
theorem rdbLatchesTheFirstField : Obligations.RdbLatchesTheFirstField := by
  refine ⟨rfl, fun P s hsep => ?_, exec_eq_effect .rdb⟩
  change rdbEffect P s = _
  rw [rdbEffect, hsep, firstField_eq_ite]
  rfl

/-- Settles O5: `RDM` has no branch but the read order; the machine's setting reads `mult` second. -/
theorem rdmFormsTheUnion : Obligations.RdmFormsTheUnion := by
  refine ⟨rfl, fun P s _ => ?_, exec_eq_effect .rdm⟩
  change rdmEffect P s = _
  rw [rdmEffect, secondField_eq_ite]
  rfl

/-- Settles O54: floors of linear terms in the divisor. -/
theorem compareValuesStayBelowTheDivisor : Obligations.CompareValuesStayBelowTheDivisor := by
  have bounds (d : Data) : ((dutyA d).toNat < d.toNat ↔ 1 ≤ d.toNat) ∧
      ((dutyB d).toNat < d.toNat ↔ 2 ≤ d.toNat) ∧ (2 ≤ d.toNat → (dutyA d).toNat ≤ (dutyB d).toNat) := by
    rw [dutyA_toNat, dutyB_toNat]
    omega
  refine ⟨bounds, fun P i hW1 => ?_⟩
  obtain ⟨hA, hB, -⟩ := bounds (P.tune i).div
  exact ⟨hA.mpr (Nat.le_of_succ_le (hW1 i)), hB.mpr (hW1 i)⟩

/-- Settles O55: with bits 7:3 zero a selector is its low three bits, and it is not zero. -/
theorem selectorWrittenIsOneToSeven : Obligations.SelectorWrittenIsOneToSeven := by
  intro P i hW2 hW3
  have hhigh : (P.tune i).ps.toNat >>> 3 % 2 ^ 5 = 0 := by
    rw [← BitVec.extractLsb'_toNat, hW2 i]
    rfl
  have hnonzero : (P.tune i).ps.toNat ≠ 0 := fun h => hW3 i (BitVec.eq_of_toNat_eq h)
  have hlt := (P.tune i).ps.isLt
  rw [zextSelector_toNat]
  rw [Nat.shiftRight_eq_div_pow] at hhigh
  omega

end Sys2Proof.Machine
end
